-- ==== Sys2Proof/Word.lean ====
section
/-! DEFINITION. The words of the block: bytes, 32-bit registers, the widths of a bus access and the data
a bus access carries (spec/00_scope.md R7, R8; spec/20_memory.md R74). -/

namespace Sys2Proof

/-- One byte of the memory image or of PIF RAM. -/
abbrev Byte := BitVec 8

/-- A 32-bit register, command word or physical address (R7). -/
abbrev Word := BitVec 32

/-- The memory image as plain data: (address, byte) cells, addresses strictly rising, no cell equal to what an
unlisted address reads as. Machine/Memory.lean holds its operations and its canonical form. -/
abbrev Memory := List Host.Cell

/-- The number of bytes n of a bus operation, n ∈ {1, 2, 4, 8} (R74, R100). -/
inductive Width where
  | w1
  | w2
  | w4
  | w8
deriving DecidableEq, Repr

/-- The 8n bits a bus operation of n bytes carries (R100). -/
inductive Data where
  | b (v : BitVec 8)
  | h (v : BitVec 16)
  | w (v : BitVec 32)
  | d (v : BitVec 64)
deriving DecidableEq, Repr

end Sys2Proof
end

