-- ==== Sys2Proof/Config.lean ====
section
/-! DEFINITION. What is fixed for a run: the implementation parameters of spec/00_scope.md R6, as plain data, and
the free values, as opaque constants that nothing can evaluate. A state holds its parameters (State.cfg), so a
statement about every state holds for every value a parameter admits, as R6 asks. The defaults and the functions of
the parameters are in Machine/Params.lean. -/

namespace Sys2Proof

/-- P_RDRAM_SIZE: the two sizes of the memory image that R6 admits. -/
inductive RdramSize where
  | mib4
  | mib8
deriving DecidableEq, Repr

/-- P_MI_MASK_WRITE: how a bus write to MI_MASK is decoded (R6, R105; spec/90_conflicts.md C5). -/
inductive MaskWrite where
  | wholesale
  | bitpair
deriving DecidableEq, Repr

/-- P_AUDIO_DURATION: R173's default formula, or any other total function, named by a number. -/
inductive AudioDuration where
  | formula
  | other (n : Nat)
deriving DecidableEq, Repr

/-- P_JOYBUS_DEVICE: any answer of the right shape (R215), or R216's default device, whose HostPad(0) is the host's
input: `none`, a free value at each read; `some v`, the four bytes of v (buttons high, buttons low, stick x, stick y). -/
inductive JoybusDevice where
  | anyDevice
  | standardController (pad : Option Word)
deriving DecidableEq, Repr

/-- P_BASE_*: the base address of each register block and of PIF RAM (R71). -/
structure Bases where
  dpc    : Word
  mi     : Word
  ai     : Word
  ri     : Word
  si     : Word
  pifRam : Word
deriving DecidableEq, Repr

/-- The parameters of R6. -/
structure Config where
  rdramSize      : RdramSize
  openBus        : Word
  miVersion      : Word
  miMaskWrite    : MaskWrite
  viClock        : Nat
  cpuClock       : Nat
  audioDuration  : AudioDuration
  siTransferCost : Nat
  /-- entry ch is the cost of channel ch; a channel with no entry costs 0 -/
  siChannelCost  : List Nat
  joybus         : JoybusDevice
  /-- entry id is the length of command id in 64-bit units; an id with no entry has length 1 -/
  rdpCmdLen      : List Nat
  syncFullId     : BitVec 6
  memInit        : Memory
  bases          : Bases
deriving DecidableEq, Repr

/-- FREE VALUE (log entry 2). `ExtRead(addr, n)`: what an external owner answers (R154), drawn anew for each draw
number. UNVERIFIED: the owners are outside the spec. Safe: nothing constrains it. -/
opaque Config.extRead : Nat → Word → Width → BitVec 64

/-- FREE VALUE (log entry 2). The answer of a serial device (R215): draw number, channel, command, rx. Safe: nothing
constrains it; Machine/Serial.lean gives it the right length. -/
opaque Config.joybusAnswer : Nat → Nat → List Byte → Nat → Option (List Byte)

/-- FREE VALUE (log entry 2). HostPad(0), the host's input to the default device (R216), at a draw number. Safe. -/
opaque Config.hostPad : Nat → Word

/-- FREE VALUE (log entry 2). P_AUDIO_DURATION other than the default formula: the function's number, then length,
dacrate, bitrate (R6, R173). Safe: any total function to naturals. -/
opaque Config.otherAudioDuration : Nat → Nat → Nat → Nat → Nat

end Sys2Proof
end

