-- ==== Sys2Proof/Machine/Params.lean ====
section
/-! DEFINITION. The functions of the parameters and their default values (spec/00_scope.md R6). -/

namespace Sys2Proof

/-- The number of bytes n of a width (R74). -/
def Width.bytes : Width → Nat
  | .w1 => 1
  | .w2 => 2
  | .w4 => 4
  | .w8 => 8

/-- The width n of a bus access that carries this data (R100). -/
def Data.width : Data → Width
  | .b _ => .w1
  | .h _ => .w2
  | .w _ => .w4
  | .d _ => .w8

/-- The 8n low-order bits of a 64-bit value, as an access of n bytes carries them. -/
def Data.ofBits (v : BitVec 64) : Width → Data
  | .w1 => .b (v.setWidth 8)
  | .w2 => .h (v.setWidth 16)
  | .w4 => .w (v.setWidth 32)
  | .w8 => .d v

/-- The bytes of an access in address order, most significant first (R76). -/
def Data.bytes : Data → List Byte
  | .b v => [v]
  | .h v => [v.extractLsb' 8 8, v.extractLsb' 0 8]
  | .w v => [v.extractLsb' 24 8, v.extractLsb' 16 8, v.extractLsb' 8 8, v.extractLsb' 0 8]
  | .d v => [v.extractLsb' 56 8, v.extractLsb' 48 8, v.extractLsb' 40 8, v.extractLsb' 32 8,
             v.extractLsb' 24 8, v.extractLsb' 16 8, v.extractLsb' 8 8, v.extractLsb' 0 8]

/-- P_RDRAM_SIZE in bytes. -/
def RdramSize.bytes : RdramSize → Nat
  | .mib4 => 0x00400000
  | .mib8 => 0x00800000

/-- The bytes of the Bus-owned memory image (R47). -/
def Config.rdramBytes (c : Config) : Nat := c.rdramSize.bytes

/-- The default bases of R71. -/
def Bases.default : Bases where
  dpc    := 0x04100000#32
  mi     := 0x04300000#32
  ai     := 0x04500000#32
  ri     := 0x04700000#32
  si     := 0x04800000#32
  pifRam := 0x1FC007C0#32

/-- R258's default table, ids 0x00 .. 0x3F: the triangles 0x08 .. 0x0F, the texture rectangles 0x24 and 0x25, and 1
for every other id. -/
def defaultCmdLen : List Nat :=
  List.replicate 8 1 ++ [4, 6, 12, 14, 12, 14, 20, 22] ++ List.replicate 20 1 ++ [2, 2] ++ List.replicate 26 1

/-- Every parameter at R6's default. HostPad(0), a host input, is left free. -/
def Config.default : Config where
  rdramSize      := .mib8
  openBus        := 0#32
  miVersion      := 0x02020102#32
  miMaskWrite    := .wholesale
  viClock        := 48681812
  cpuClock       := 93750000
  audioDuration  := .formula
  siTransferCost := 64
  siChannelCost  := [0, 0, 0, 0, 0, 0]
  joybus         := .standardController none
  rdpCmdLen      := defaultCmdLen
  syncFullId     := 0x29#6
  memInit        := []
  bases          := Bases.default

/-- The DAC frequency of a rate register: `floor(P_VI_CLOCK / (dacrate + 1))` (R173, R176). -/
def Config.dacFrequency (c : Config) (dacrate : BitVec 14) : Nat :=
  c.viClock / (dacrate.toNat + 1)

/-- R173's default: 4-byte stereo frames at the DAC frequency, counted in CPU cycles. -/
def Config.formulaDuration (c : Config) (len : BitVec 18) (dacrate : BitVec 14) : Nat :=
  if c.dacFrequency dacrate = 0 then 0
  else len.toNat * c.cpuClock / (4 * c.dacFrequency dacrate)

/-- `P_AUDIO_DURATION(L, dacrate, bitrate)` in time units (R173). -/
def Config.duration (c : Config) (len : BitVec 18) (dacrate : BitVec 14) (bitrate : BitVec 4) : Nat :=
  match c.audioDuration with
  | .formula => c.formulaDuration len dacrate
  | .other n => Config.otherAudioDuration n len.toNat dacrate.toNat bitrate.toNat

/-- `P_SI_CHANNEL_COST(ch)` (R207, R211). -/
def Config.channelCost (c : Config) (ch : Nat) : Nat := c.siChannelCost.getD ch 0

/-- `P_RDP_CMD_LEN(id)` in 64-bit units (R258). -/
def Config.cmdLen (c : Config) (id : BitVec 6) : Nat := c.rdpCmdLen.getD id.toNat 1

end Sys2Proof
end

