-- ==== Sys2Proof/Machine/AddressMap.lean ====
section
/-! DEFINITION. The address map of spec/20_memory.md R71 and the routing function Route of R72. -/

namespace Sys2Proof.Machine

/-- The owner column of R71; the several external rows have one kind, and so have the unmapped ones. -/
inductive Owner where
  | memoryImage
  | external
  | unmapped
  | dpc
  | mi
  | ai
  | ri
  | si
  | pifRam
deriving DecidableEq, Repr

/-- One row of R71: the addresses lo .. hi, both included. -/
structure Region where
  lo    : Nat
  hi    : Nat
  owner : Owner
deriving DecidableEq, Repr

/-- Does the row hold the address? -/
def Region.holds (r : Region) (a : Nat) : Bool := decide (r.lo ≤ a) && decide (a ≤ r.hi)

/-- The 1 MiB range of a register block (R71, spec/92_eei_decisions.md D1). -/
def blockRegion (base : Word) (o : Owner) : Region := ⟨base.toNat, base.toNat + 0xFFFFF, o⟩

/-- R71, row by row. -/
def regions (c : Config) : List Region :=
  [ ⟨0, c.rdramBytes - 1, .memoryImage⟩,
    ⟨c.rdramBytes, 0x03EFFFFF, .unmapped⟩,
    ⟨0x03F00000, 0x03FFFFFF, .external⟩,
    ⟨0x04000000, 0x040FFFFF, .external⟩,
    blockRegion c.bases.dpc .dpc,
    ⟨0x04200000, 0x042FFFFF, .external⟩,
    blockRegion c.bases.mi .mi,
    ⟨0x04400000, 0x044FFFFF, .external⟩,
    blockRegion c.bases.ai .ai,
    ⟨0x04600000, 0x046FFFFF, .external⟩,
    blockRegion c.bases.ri .ri,
    blockRegion c.bases.si .si,
    ⟨0x04900000, 0x04FFFFFF, .unmapped⟩,
    ⟨0x05000000, 0x1FBFFFFF, .external⟩,
    ⟨0x1FC00000, 0x1FC007BF, .external⟩,
    ⟨c.bases.pifRam.toNat, c.bases.pifRam.toNat + 0x3F, .pifRam⟩,
    ⟨0x1FC00800, 0x1FCFFFFF, .unmapped⟩,
    ⟨0x1FD00000, 0x7FFFFFFF, .external⟩,
    ⟨0x80000000, 0xFFFFFFFF, .unmapped⟩ ]

/-- The owner of the first row that holds the address; an address in no row is unmapped. DESIGN CHOICE
(log entry 15): with other bases than the defaults the first row decides. -/
def routeIn : List Region → Nat → Owner
  | [], _ => .unmapped
  | r :: rs, a => if r.holds a then r.owner else routeIn rs a

/-- `Route(addr)` (R72). -/
def route (c : Config) (a : Word) : Owner := routeIn (regions c) a.toNat

/-- Is the owner a register block (R74)? -/
def Owner.isRegisterBlock : Owner → Bool
  | .dpc | .mi | .ai | .ri | .si => true
  | .memoryImage | .external | .unmapped | .pifRam => false

/-- `addr mod n = 0` (R75). -/
def aligned (a : Word) (n : Width) : Bool := a.toNat % n.bytes == 0

/-- `off = (addr - B)` with bits 1:0 cleared, inside the block's 1 MiB range (R73). -/
def registerOffset (base a : Word) : BitVec 20 := ((a - base) &&& 0xFFFFFFFC#32).setWidth 20

/-- An offset of MI that names no register (R103, R115). -/
def miReserved (off : BitVec 20) : Bool := off.toNat % 4 == 0 && decide (0x10 ≤ off.toNat)

/-- An offset of AI that names no register (R106, R115). -/
def aiReserved (off : BitVec 20) : Bool := off.toNat % 4 == 0 && decide (0x18 ≤ off.toNat)

/-- An offset of SI that names no register: 0x08, 0x0C, 0x14 and every offset from 0x1C (R108, R115). -/
def siReserved (off : BitVec 20) : Bool :=
  off.toNat % 4 == 0 &&
    (off.toNat == 0x08 || off.toNat == 0x0C || off.toNat == 0x14 || decide (0x1C ≤ off.toNat))

/-- An offset of DPC that names no register (R110, R115). -/
def dpcReserved (off : BitVec 20) : Bool := off.toNat % 4 == 0 && decide (0x20 ≤ off.toNat)

/-- An offset of RI that names no register (R112, R115, R288). -/
def riReserved (off : BitVec 20) : Bool := off.toNat % 4 == 0 && decide (0x20 ≤ off.toNat)

end Sys2Proof.Machine
end

