-- ==== Sys2Proof/Syntax.lean ====
section
/-! DEFINITION. The operations of the block as syntax: the requests the outside issues (spec/30_encoding.md R100,
R101) and Instr, one constructor for each row of spec/opcode_table.json. -/

namespace Sys2Proof

/-- dir of a bus operation, and the direction of a serial transaction (R100, R207). -/
inductive Dir where
  | read
  | write
deriving DecidableEq, Repr

/-- Format BUS (R100): `read` is dir = R with its width n; `write` is dir = W, whose n is the width of its data. -/
inductive BusOp where
  | read (addr : Word) (n : Width)
  | write (addr : Word) (data : Data)
deriving DecidableEq, Repr

/-- What the outside issues: a bus operation, or a port word with its operand t (R101; t is read by ADVANCE only and
is 0 elsewhere: log entry 13). -/
inductive Request where
  | bus (op : BusOp)
  | port (word : Word) (t : Nat)
deriving DecidableEq, Repr

/-- The agents of R322: the stepping loop (the CPU's step: its bus operations, its ADVANCE and its QUERY_IRQ, R300),
the host, and the external components. Which requests are moves of
which agent is mayIssue (Machine/Fetch.lean). -/
inductive Agent where
  | steppingLoop
  | host
  | external
deriving DecidableEq, Repr

/-- An operation that an agent has issued. -/
structure Issued where
  agent   : Agent
  request : Request
deriving DecidableEq, Repr

/-- The sources whose owners are outside the block: k = 0, 3, 4 (R20, R141). -/
inductive ExtSource where
  | sp
  | vi
  | pi
deriving DecidableEq, Repr

/-- One constructor for each row of spec/opcode_table.json; the comment gives the row's mnemonic and rule. `v` is the
written word, `a` an address, `n` a width, `d` written data, `off` a register offset, `j` a word index. -/
inductive Instr where
  -- Interrupt Register (spec/40_interrupt.md; MI_MASK has one row for each value of P_MI_MASK_WRITE)
  /-- SW_MI_MODE, R131 -/
  | swMiMode (v : Word)
  /-- LW_MI_MODE, R132 -/
  | lwMiMode
  /-- SW_MI_VERSION, R138 -/
  | swMiVersion (v : Word)
  /-- LW_MI_VERSION, R133 -/
  | lwMiVersion
  /-- SW_MI_INTR, R138 -/
  | swMiIntr (v : Word)
  /-- LW_MI_INTR, R134 -/
  | lwMiIntr
  /-- SW_MI_MASK__P_MI_MASK_WRITE_WHOLESALE, R135 -/
  | swMiMaskWholesale (v : Word)
  /-- SW_MI_MASK__P_MI_MASK_WRITE_BITPAIR, R136 -/
  | swMiMaskBitpair (v : Word)
  /-- LW_MI_MASK, R137 -/
  | lwMiMask
  -- Audio DMA Engine (spec/42_audio_dma.md)
  /-- SW_AI_DRAM_ADDR, R170 -/
  | swAiDramAddr (v : Word)
  /-- LW_AI_DRAM_ADDR, R178 -/
  | lwAiDramAddr
  /-- SW_AI_LEN, R171 -/
  | swAiLen (v : Word)
  /-- LW_AI_LEN, R179 -/
  | lwAiLen
  /-- SW_AI_CONTROL, R174 -/
  | swAiControl (v : Word)
  /-- LW_AI_CONTROL, R180 -/
  | lwAiControl
  /-- SW_AI_STATUS, R175 -/
  | swAiStatus (v : Word)
  /-- LW_AI_STATUS, R181 -/
  | lwAiStatus
  /-- SW_AI_DACRATE, R176 -/
  | swAiDacrate (v : Word)
  /-- LW_AI_DACRATE, R182 -/
  | lwAiDacrate
  /-- SW_AI_BITRATE, R177 -/
  | swAiBitrate (v : Word)
  /-- LW_AI_BITRATE, R183 -/
  | lwAiBitrate
  -- Serial DMA Engine (spec/43_serial_dma.md)
  /-- SW_SI_DRAM_ADDR, R200 -/
  | swSiDramAddr (v : Word)
  /-- LW_SI_DRAM_ADDR, R201 -/
  | lwSiDramAddr
  /-- SW_SI_PIF_AD_RD64B, R202 -/
  | swSiPifAdRd64b (v : Word)
  /-- LW_SI_PIF_AD_RD64B, R204 -/
  | lwSiPifAdRd64b
  /-- SW_SI_PIF_AD_WR64B, R203 -/
  | swSiPifAdWr64b (v : Word)
  /-- LW_SI_PIF_AD_WR64B, R204 -/
  | lwSiPifAdWr64b
  /-- SW_SI_STATUS, R206 -/
  | swSiStatus (v : Word)
  /-- LW_SI_STATUS, R205 -/
  | lwSiStatus
  -- Display Command Interface (spec/44_display_cmd.md)
  /-- SW_DPC_START, R240 -/
  | swDpcStart (v : Word)
  /-- LW_DPC_START, R245 -/
  | lwDpcStart
  /-- SW_DPC_END, R241 -/
  | swDpcEnd (v : Word)
  /-- LW_DPC_END, R246 -/
  | lwDpcEnd
  /-- SW_DPC_CURRENT, R250 -/
  | swDpcCurrent (v : Word)
  /-- LW_DPC_CURRENT, R247 -/
  | lwDpcCurrent
  /-- SW_DPC_STATUS, R244 -/
  | swDpcStatus (v : Word)
  /-- LW_DPC_STATUS, R248 -/
  | lwDpcStatus
  /-- SW_DPC_CLOCK, R250 -/
  | swDpcClock (v : Word)
  /-- LW_DPC_CLOCK, R249 -/
  | lwDpcClock
  /-- SW_DPC_BUFBUSY, R250 -/
  | swDpcBufbusy (v : Word)
  /-- LW_DPC_BUFBUSY, R249 -/
  | lwDpcBufbusy
  /-- SW_DPC_PIPEBUSY, R250 -/
  | swDpcPipebusy (v : Word)
  /-- LW_DPC_PIPEBUSY, R249 -/
  | lwDpcPipebusy
  /-- SW_DPC_TMEM, R250 -/
  | swDpcTmem (v : Word)
  /-- LW_DPC_TMEM, R249 -/
  | lwDpcTmem
  -- Calibration Register Block (spec/45_calibration.md)
  /-- SW_RI_MODE, R280 -/
  | swRiMode (v : Word)
  /-- LW_RI_MODE, R280 -/
  | lwRiMode
  /-- SW_RI_CONFIG, R281 -/
  | swRiConfig (v : Word)
  /-- LW_RI_CONFIG, R281 -/
  | lwRiConfig
  /-- SW_RI_CURRENT_LOAD, R282 -/
  | swRiCurrentLoad (v : Word)
  /-- LW_RI_CURRENT_LOAD, R282 -/
  | lwRiCurrentLoad
  /-- SW_RI_SELECT, R283 -/
  | swRiSelect (v : Word)
  /-- LW_RI_SELECT, R283 -/
  | lwRiSelect
  /-- SW_RI_REFRESH, R284 -/
  | swRiRefresh (v : Word)
  /-- LW_RI_REFRESH, R284 -/
  | lwRiRefresh
  /-- SW_RI_LATENCY, R285 -/
  | swRiLatency (v : Word)
  /-- LW_RI_LATENCY, R285 -/
  | lwRiLatency
  /-- SW_RI_RERROR, R286 -/
  | swRiRerror (v : Word)
  /-- LW_RI_RERROR, R286 -/
  | lwRiRerror
  /-- SW_RI_WERROR, R287 -/
  | swRiWerror (v : Word)
  /-- LW_RI_WERROR, R287 -/
  | lwRiWerror
  -- PIF RAM, word j (R159, R160)
  /-- LW_PIF_RAM, R159 -/
  | lwPifRam (j : BitVec 4)
  /-- SW_PIF_RAM, R160 -/
  | swPifRam (j : BitVec 4) (v : Word)
  -- reserved offsets of the register blocks (R161)
  /-- LW_MI_reserved_offset, R161 -/
  | lwMiReserved (off : BitVec 20)
  /-- SW_MI_reserved_offset, R161 -/
  | swMiReserved (off : BitVec 20) (v : Word)
  /-- LW_AI_reserved_offset, R161 -/
  | lwAiReserved (off : BitVec 20)
  /-- SW_AI_reserved_offset, R161 -/
  | swAiReserved (off : BitVec 20) (v : Word)
  /-- LW_SI_reserved_offset, R161 -/
  | lwSiReserved (off : BitVec 20)
  /-- SW_SI_reserved_offset, R161 -/
  | swSiReserved (off : BitVec 20) (v : Word)
  /-- LW_DPC_reserved_offset, R161 -/
  | lwDpcReserved (off : BitVec 20)
  /-- SW_DPC_reserved_offset, R161 -/
  | swDpcReserved (off : BitVec 20) (v : Word)
  /-- LW_RI_reserved_offset, R161 -/
  | lwRiReserved (off : BitVec 20)
  /-- SW_RI_reserved_offset, R161 -/
  | swRiReserved (off : BitVec 20) (v : Word)
  -- the memory image (R152, R153)
  /-- LB_MEM, R152 -/
  | lbMem (a : Word)
  /-- SB_MEM, R153 -/
  | sbMem (a : Word) (v : BitVec 8)
  /-- LH_MEM, R152 -/
  | lhMem (a : Word)
  /-- SH_MEM, R153 -/
  | shMem (a : Word) (v : BitVec 16)
  /-- LW_MEM, R152 -/
  | lwMem (a : Word)
  /-- SW_MEM, R153 -/
  | swMem (a : Word) (v : BitVec 32)
  /-- LD_MEM, R152 -/
  | ldMem (a : Word)
  /-- SD_MEM, R153 -/
  | sdMem (a : Word) (v : BitVec 64)
  -- external and unmapped ranges (R154 .. R156)
  /-- EXT.R, R154 -/
  | extR (a : Word) (n : Width)
  /-- EXT.W, R154 -/
  | extW (a : Word) (d : Data)
  /-- UNMAPPED.R, R155 -/
  | unmappedR (a : Word) (n : Width)
  /-- UNMAPPED.W, R156 -/
  | unmappedW (a : Word) (d : Data)
  -- refused bus operations (R157, R158)
  /-- REFUSE_UnsupportedWidth, R157 -/
  | refuseUnsupportedWidth (op : BusOp)
  /-- REFUSE_MisalignedBusAccess, R158 -/
  | refuseMisalignedBusAccess (op : BusOp)
  -- port operations (R113)
  /-- PORT_QUERY_IRQ, R143 -/
  | portQueryIrq
  /-- PORT_ADVANCE, R302 -/
  | portAdvance (t : Nat)
  /-- PORT_CONSTRUCT, R340 -/
  | portConstruct
  /-- PORT_RAISE_SOURCE, R141 -/
  | portRaiseSource (k : ExtSource)
  /-- PORT_CLEAR_SOURCE, R142 -/
  | portClearSource (k : ExtSource)
  /-- PORT_QUERY_CMD_READY, R251 -/
  | portQueryCmdReady
  /-- PORT_QUERY_FRAME_FINISHED, R252 -/
  | portQueryFrameFinished
  /-- PORT_EXPORT_WORDS, R253 -/
  | portExportWords
  /-- PORT_EXPORT_ROW_LENGTHS, R254 -/
  | portExportRowLengths
  /-- PORT_CLEAR_COMMANDS, R255 -/
  | portClearCommands
  /-- PORT_CLEAR_FRAME_FINISHED, R256 -/
  | portClearFrameFinished
  -- refused port words (R115)
  /-- REFUSE_UnknownPortOp, R115 -/
  | refuseUnknownPortOp (word : Word)
deriving DecidableEq, Repr

end Sys2Proof
end

