-- ==== Sys2Proof/Machine/Requests.lean ====
section
/-! DEFINITION. The fields of a request: a bus operation's address and width, and the fields and codes of a port word
(spec/30_encoding.md R100, R101, R113). -/

namespace Sys2Proof

open Sys2Proof.Machine

/-- addr of a bus operation (R100). -/
def BusOp.addr : BusOp → Word
  | .read a _ => a
  | .write a _ => a

/-- n of a bus operation (R100). -/
def BusOp.width : BusOp → Width
  | .read _ n => n
  | .write _ d => d.width

/-- k of an external source (R20). -/
def ExtSource.number : ExtSource → Byte
  | .sp => 0#8
  | .vi => 3#8
  | .pi => 4#8

/-- The external source of a k, where k ∈ {0, 3, 4} (R113). -/
def ExtSource.ofNumber (k : Byte) : Option ExtSource :=
  if k = 0#8 then some .sp
  else if k = 3#8 then some .vi
  else if k = 4#8 then some .pi
  else none

namespace Machine

/-- `code`, bits 31:24 of a port word (R101). -/
def portCode (word : Word) : Byte := word.extractLsb' 24 8

/-- Bits 23:8 of a port word, which must be 0 (R101). -/
def portZero (word : Word) : BitVec 16 := word.extractLsb' 8 16

/-- `k`, bits 7:0 of a port word (R101). -/
def portK (word : Word) : Byte := word.extractLsb' 0 8

/-- The operation of R113 that a code and a k select; none where the code is not in the table or the k is not
admitted for it (R115, item 4). -/
def portTable (code k : Byte) (t : Nat) : Option Instr :=
  if code = 0x10#8 then (ExtSource.ofNumber k).map .portRaiseSource
  else if code = 0x11#8 then (ExtSource.ofNumber k).map .portClearSource
  else if k ≠ 0#8 then none
  else if code = 0x01#8 then some .portQueryIrq
  else if code = 0x02#8 then some (.portAdvance t)
  else if code = 0x03#8 then some .portConstruct
  else if code = 0x20#8 then some .portQueryCmdReady
  else if code = 0x21#8 then some .portQueryFrameFinished
  else if code = 0x22#8 then some .portExportWords
  else if code = 0x23#8 then some .portExportRowLengths
  else if code = 0x24#8 then some .portClearCommands
  else if code = 0x25#8 then some .portClearFrameFinished
  else none

/-- Does the port word select an operation (R115, item 4)? -/
def portWordKnown (word : Word) : Bool :=
  decide (portZero word = 0#16) && (portTable (portCode word) (portK word) 0).isSome

/-- The address is aligned for the width and its owner is o (R72, R75). -/
def owned (c : Config) (o : Owner) (a : Word) (n : Width) : Bool :=
  aligned a n && decide (route c a = o)

/-- An aligned bus operation of n ≠ 4 bytes on a register block or on PIF RAM (R157). -/
def unsupportedWidth (c : Config) (op : BusOp) : Bool :=
  aligned op.addr op.width && decide (op.width ≠ .w4) &&
    ((route c op.addr).isRegisterBlock || decide (route c op.addr = .pifRam))

end Machine

end Sys2Proof
end

