-- ==== Sys2Proof/WellFormed.lean ====
section
/-! DEFINITION. The well-formed operations: those that the decoder of spec/30_encoding.md R102 and R113 can make under
the parameters c. Each check rests on the address map and the port codes, which are in Machine/. -/

namespace Sys2Proof

open Sys2Proof.Machine

/-- The operands of every row that some operand does not fit: ranges (R71), widths and alignment (R74, R75), register
offsets (R73), the mask-write parameter (R105) and port words (R115). -/
def WellFormed (c : Config) : Instr → Bool
  | .swMiMode _ => true
  | .lwMiMode => true
  | .swMiVersion _ => true
  | .lwMiVersion => true
  | .swMiIntr _ => true
  | .lwMiIntr => true
  | .swMiMaskWholesale _ => decide (c.miMaskWrite = .wholesale)
  | .swMiMaskBitpair _ => decide (c.miMaskWrite = .bitpair)
  | .lwMiMask => true
  | .swAiDramAddr _ => true
  | .lwAiDramAddr => true
  | .swAiLen _ => true
  | .lwAiLen => true
  | .swAiControl _ => true
  | .lwAiControl => true
  | .swAiStatus _ => true
  | .lwAiStatus => true
  | .swAiDacrate _ => true
  | .lwAiDacrate => true
  | .swAiBitrate _ => true
  | .lwAiBitrate => true
  | .swSiDramAddr _ => true
  | .lwSiDramAddr => true
  | .swSiPifAdRd64b _ => true
  | .lwSiPifAdRd64b => true
  | .swSiPifAdWr64b _ => true
  | .lwSiPifAdWr64b => true
  | .swSiStatus _ => true
  | .lwSiStatus => true
  | .swDpcStart _ => true
  | .lwDpcStart => true
  | .swDpcEnd _ => true
  | .lwDpcEnd => true
  | .swDpcCurrent _ => true
  | .lwDpcCurrent => true
  | .swDpcStatus _ => true
  | .lwDpcStatus => true
  | .swDpcClock _ => true
  | .lwDpcClock => true
  | .swDpcBufbusy _ => true
  | .lwDpcBufbusy => true
  | .swDpcPipebusy _ => true
  | .lwDpcPipebusy => true
  | .swDpcTmem _ => true
  | .lwDpcTmem => true
  | .swRiMode _ => true
  | .lwRiMode => true
  | .swRiConfig _ => true
  | .lwRiConfig => true
  | .swRiCurrentLoad _ => true
  | .lwRiCurrentLoad => true
  | .swRiSelect _ => true
  | .lwRiSelect => true
  | .swRiRefresh _ => true
  | .lwRiRefresh => true
  | .swRiLatency _ => true
  | .lwRiLatency => true
  | .swRiRerror _ => true
  | .lwRiRerror => true
  | .swRiWerror _ => true
  | .lwRiWerror => true
  | .lwPifRam _ => true
  | .swPifRam _ _ => true
  | .lwMiReserved off => miReserved off
  | .swMiReserved off _ => miReserved off
  | .lwAiReserved off => aiReserved off
  | .swAiReserved off _ => aiReserved off
  | .lwSiReserved off => siReserved off
  | .swSiReserved off _ => siReserved off
  | .lwDpcReserved off => dpcReserved off
  | .swDpcReserved off _ => dpcReserved off
  | .lwRiReserved off => riReserved off
  | .swRiReserved off _ => riReserved off
  | .lbMem a => owned c .memoryImage a .w1
  | .sbMem a _ => owned c .memoryImage a .w1
  | .lhMem a => owned c .memoryImage a .w2
  | .shMem a _ => owned c .memoryImage a .w2
  | .lwMem a => owned c .memoryImage a .w4
  | .swMem a _ => owned c .memoryImage a .w4
  | .ldMem a => owned c .memoryImage a .w8
  | .sdMem a _ => owned c .memoryImage a .w8
  | .extR a n => owned c .external a n
  | .extW a d => owned c .external a d.width
  | .unmappedR a n => owned c .unmapped a n
  | .unmappedW a d => owned c .unmapped a d.width
  | .refuseUnsupportedWidth op => unsupportedWidth c op
  | .refuseMisalignedBusAccess op => !aligned op.addr op.width
  | .portQueryIrq => true
  | .portAdvance _ => true
  | .portConstruct => true
  | .portRaiseSource _ => true
  | .portClearSource _ => true
  | .portQueryCmdReady => true
  | .portQueryFrameFinished => true
  | .portExportWords => true
  | .portExportRowLengths => true
  | .portClearCommands => true
  | .portClearFrameFinished => true
  | .refuseUnknownPortOp word => !portWordKnown word

end Sys2Proof
end

