-- ==== Sys2Proof/Decode.lean ====
section
/-! DEFINITION. The decoder of bus and port operations (spec/30_encoding.md R102, R113, R115), total on every request,
and after it the encoder, written from the same tables. -/

namespace Sys2Proof

open Sys2Proof.Machine

/-- The register reads of MI (R103). -/
def readMi (off : BitVec 20) : Instr :=
  match off.toNat with
  | 0x00 => .lwMiMode
  | 0x04 => .lwMiVersion
  | 0x08 => .lwMiIntr
  | 0x0C => .lwMiMask
  | _ => .lwMiReserved off

/-- The MI_MASK write, decoded by P_MI_MASK_WRITE (R105, R116). -/
def writeMiMask (c : Config) (v : Word) : Instr :=
  match c.miMaskWrite with
  | .wholesale => .swMiMaskWholesale v
  | .bitpair => .swMiMaskBitpair v

/-- The register writes of MI (R103). -/
def writeMi (c : Config) (off : BitVec 20) (v : Word) : Instr :=
  match off.toNat with
  | 0x00 => .swMiMode v
  | 0x04 => .swMiVersion v
  | 0x08 => .swMiIntr v
  | 0x0C => writeMiMask c v
  | _ => .swMiReserved off v

/-- The register reads of AI (R106). -/
def readAi (off : BitVec 20) : Instr :=
  match off.toNat with
  | 0x00 => .lwAiDramAddr
  | 0x04 => .lwAiLen
  | 0x08 => .lwAiControl
  | 0x0C => .lwAiStatus
  | 0x10 => .lwAiDacrate
  | 0x14 => .lwAiBitrate
  | _ => .lwAiReserved off

/-- The register writes of AI (R106). -/
def writeAi (off : BitVec 20) (v : Word) : Instr :=
  match off.toNat with
  | 0x00 => .swAiDramAddr v
  | 0x04 => .swAiLen v
  | 0x08 => .swAiControl v
  | 0x0C => .swAiStatus v
  | 0x10 => .swAiDacrate v
  | 0x14 => .swAiBitrate v
  | _ => .swAiReserved off v

/-- The register reads of SI (R108). -/
def readSi (off : BitVec 20) : Instr :=
  match off.toNat with
  | 0x00 => .lwSiDramAddr
  | 0x04 => .lwSiPifAdRd64b
  | 0x10 => .lwSiPifAdWr64b
  | 0x18 => .lwSiStatus
  | _ => .lwSiReserved off

/-- The register writes of SI (R108). -/
def writeSi (off : BitVec 20) (v : Word) : Instr :=
  match off.toNat with
  | 0x00 => .swSiDramAddr v
  | 0x04 => .swSiPifAdRd64b v
  | 0x10 => .swSiPifAdWr64b v
  | 0x18 => .swSiStatus v
  | _ => .swSiReserved off v

/-- The register reads of DPC (R110). -/
def readDpc (off : BitVec 20) : Instr :=
  match off.toNat with
  | 0x00 => .lwDpcStart
  | 0x04 => .lwDpcEnd
  | 0x08 => .lwDpcCurrent
  | 0x0C => .lwDpcStatus
  | 0x10 => .lwDpcClock
  | 0x14 => .lwDpcBufbusy
  | 0x18 => .lwDpcPipebusy
  | 0x1C => .lwDpcTmem
  | _ => .lwDpcReserved off

/-- The register writes of DPC (R110). -/
def writeDpc (off : BitVec 20) (v : Word) : Instr :=
  match off.toNat with
  | 0x00 => .swDpcStart v
  | 0x04 => .swDpcEnd v
  | 0x08 => .swDpcCurrent v
  | 0x0C => .swDpcStatus v
  | 0x10 => .swDpcClock v
  | 0x14 => .swDpcBufbusy v
  | 0x18 => .swDpcPipebusy v
  | 0x1C => .swDpcTmem v
  | _ => .swDpcReserved off v

/-- The register reads of RI (R112). -/
def readRi (off : BitVec 20) : Instr :=
  match off.toNat with
  | 0x00 => .lwRiMode
  | 0x04 => .lwRiConfig
  | 0x08 => .lwRiCurrentLoad
  | 0x0C => .lwRiSelect
  | 0x10 => .lwRiRefresh
  | 0x14 => .lwRiLatency
  | 0x18 => .lwRiRerror
  | 0x1C => .lwRiWerror
  | _ => .lwRiReserved off

/-- The register writes of RI (R112). -/
def writeRi (off : BitVec 20) (v : Word) : Instr :=
  match off.toNat with
  | 0x00 => .swRiMode v
  | 0x04 => .swRiConfig v
  | 0x08 => .swRiCurrentLoad v
  | 0x0C => .swRiSelect v
  | 0x10 => .swRiRefresh v
  | 0x14 => .swRiLatency v
  | 0x18 => .swRiRerror v
  | 0x1C => .swRiWerror v
  | _ => .swRiReserved off v

/-- A bus operation on a register block: 4 bytes, or refused (R157); the register of its offset (R73). -/
def decodeRegister (base : Word) (read : BitVec 20 → Instr) (write : BitVec 20 → Word → Instr) (op : BusOp) : Instr :=
  match op with
  | .read a .w4 => read (registerOffset base a)
  | .write a (.w v) => write (registerOffset base a) v
  | _ => .refuseUnsupportedWidth op

/-- The word index of an address of PIF RAM (R159). -/
def pifIndex (base a : Word) : BitVec 4 := (a - base).extractLsb' 2 4

/-- A bus operation on PIF RAM: 4 bytes, or refused (R157, R159, R160). -/
def decodePif (base : Word) (op : BusOp) : Instr :=
  match op with
  | .read a .w4 => .lwPifRam (pifIndex base a)
  | .write a (.w v) => .swPifRam (pifIndex base a) v
  | _ => .refuseUnsupportedWidth op

/-- A bus operation on the memory image (R152, R153). -/
def decodeMemory : BusOp → Instr
  | .read a .w1 => .lbMem a
  | .read a .w2 => .lhMem a
  | .read a .w4 => .lwMem a
  | .read a .w8 => .ldMem a
  | .write a (.b v) => .sbMem a v
  | .write a (.h v) => .shMem a v
  | .write a (.w v) => .swMem a v
  | .write a (.d v) => .sdMem a v

/-- A bus operation on an external range (R154). -/
def decodeExternal : BusOp → Instr
  | .read a n => .extR a n
  | .write a d => .extW a d

/-- A bus operation on an address of no owner (R155, R156). -/
def decodeUnmapped : BusOp → Instr
  | .read a n => .unmappedR a n
  | .write a d => .unmappedW a d

/-- A bus operation by the owner of its address (R102). -/
def decodeOwned (c : Config) (op : BusOp) : Owner → Instr
  | .memoryImage => decodeMemory op
  | .pifRam => decodePif c.bases.pifRam op
  | .external => decodeExternal op
  | .unmapped => decodeUnmapped op
  | .mi => decodeRegister c.bases.mi readMi (writeMi c) op
  | .ai => decodeRegister c.bases.ai readAi writeAi op
  | .si => decodeRegister c.bases.si readSi writeSi op
  | .dpc => decodeRegister c.bases.dpc readDpc writeDpc op
  | .ri => decodeRegister c.bases.ri readRi writeRi op

/-- `Decode(dir, addr, n)` (R102): the misalignment test first, then the owner of the address. -/
def decodeBus (c : Config) (op : BusOp) : Instr :=
  if aligned op.addr op.width then decodeOwned c op (route c op.addr) else .refuseMisalignedBusAccess op

/-- The port operation of a word (R113), or its refusal by name (R115, item 4). -/
def decodePort (word : Word) (t : Nat) : Instr :=
  if portZero word = 0#16 then (portTable (portCode word) (portK word) t).getD (.refuseUnknownPortOp word)
  else .refuseUnknownPortOp word

/-- The operation a request selects. Total: a request that selects none is one of the REFUSE rows. -/
def decode (c : Config) : Request → Instr
  | .bus op => decodeBus c op
  | .port word t => decodePort word t

/-- A 4-byte read at an offset of a block. -/
def readAt (base off : Word) : Request := .bus (.read (base + off) .w4)

/-- A 4-byte write at an offset of a block. -/
def writeAt (base off v : Word) : Request := .bus (.write (base + off) (.w v))

/-- A port word built from its fields, bits 23:8 zero (R101). -/
def portWord (code k : Byte) : Word := code ++ 0#16 ++ k

/-- The request of a well-formed operation, from the same tables: R103, R106, R108, R110, R112 (offsets), R91 (PIF
RAM), R100 (the other ranges), R113 (port codes). -/
def encode (c : Config) : Instr → Request
  | .swMiMode v => writeAt c.bases.mi 0x00#32 v
  | .lwMiMode => readAt c.bases.mi 0x00#32
  | .swMiVersion v => writeAt c.bases.mi 0x04#32 v
  | .lwMiVersion => readAt c.bases.mi 0x04#32
  | .swMiIntr v => writeAt c.bases.mi 0x08#32 v
  | .lwMiIntr => readAt c.bases.mi 0x08#32
  | .swMiMaskWholesale v => writeAt c.bases.mi 0x0C#32 v
  | .swMiMaskBitpair v => writeAt c.bases.mi 0x0C#32 v
  | .lwMiMask => readAt c.bases.mi 0x0C#32
  | .swAiDramAddr v => writeAt c.bases.ai 0x00#32 v
  | .lwAiDramAddr => readAt c.bases.ai 0x00#32
  | .swAiLen v => writeAt c.bases.ai 0x04#32 v
  | .lwAiLen => readAt c.bases.ai 0x04#32
  | .swAiControl v => writeAt c.bases.ai 0x08#32 v
  | .lwAiControl => readAt c.bases.ai 0x08#32
  | .swAiStatus v => writeAt c.bases.ai 0x0C#32 v
  | .lwAiStatus => readAt c.bases.ai 0x0C#32
  | .swAiDacrate v => writeAt c.bases.ai 0x10#32 v
  | .lwAiDacrate => readAt c.bases.ai 0x10#32
  | .swAiBitrate v => writeAt c.bases.ai 0x14#32 v
  | .lwAiBitrate => readAt c.bases.ai 0x14#32
  | .swSiDramAddr v => writeAt c.bases.si 0x00#32 v
  | .lwSiDramAddr => readAt c.bases.si 0x00#32
  | .swSiPifAdRd64b v => writeAt c.bases.si 0x04#32 v
  | .lwSiPifAdRd64b => readAt c.bases.si 0x04#32
  | .swSiPifAdWr64b v => writeAt c.bases.si 0x10#32 v
  | .lwSiPifAdWr64b => readAt c.bases.si 0x10#32
  | .swSiStatus v => writeAt c.bases.si 0x18#32 v
  | .lwSiStatus => readAt c.bases.si 0x18#32
  | .swDpcStart v => writeAt c.bases.dpc 0x00#32 v
  | .lwDpcStart => readAt c.bases.dpc 0x00#32
  | .swDpcEnd v => writeAt c.bases.dpc 0x04#32 v
  | .lwDpcEnd => readAt c.bases.dpc 0x04#32
  | .swDpcCurrent v => writeAt c.bases.dpc 0x08#32 v
  | .lwDpcCurrent => readAt c.bases.dpc 0x08#32
  | .swDpcStatus v => writeAt c.bases.dpc 0x0C#32 v
  | .lwDpcStatus => readAt c.bases.dpc 0x0C#32
  | .swDpcClock v => writeAt c.bases.dpc 0x10#32 v
  | .lwDpcClock => readAt c.bases.dpc 0x10#32
  | .swDpcBufbusy v => writeAt c.bases.dpc 0x14#32 v
  | .lwDpcBufbusy => readAt c.bases.dpc 0x14#32
  | .swDpcPipebusy v => writeAt c.bases.dpc 0x18#32 v
  | .lwDpcPipebusy => readAt c.bases.dpc 0x18#32
  | .swDpcTmem v => writeAt c.bases.dpc 0x1C#32 v
  | .lwDpcTmem => readAt c.bases.dpc 0x1C#32
  | .swRiMode v => writeAt c.bases.ri 0x00#32 v
  | .lwRiMode => readAt c.bases.ri 0x00#32
  | .swRiConfig v => writeAt c.bases.ri 0x04#32 v
  | .lwRiConfig => readAt c.bases.ri 0x04#32
  | .swRiCurrentLoad v => writeAt c.bases.ri 0x08#32 v
  | .lwRiCurrentLoad => readAt c.bases.ri 0x08#32
  | .swRiSelect v => writeAt c.bases.ri 0x0C#32 v
  | .lwRiSelect => readAt c.bases.ri 0x0C#32
  | .swRiRefresh v => writeAt c.bases.ri 0x10#32 v
  | .lwRiRefresh => readAt c.bases.ri 0x10#32
  | .swRiLatency v => writeAt c.bases.ri 0x14#32 v
  | .lwRiLatency => readAt c.bases.ri 0x14#32
  | .swRiRerror v => writeAt c.bases.ri 0x18#32 v
  | .lwRiRerror => readAt c.bases.ri 0x18#32
  | .swRiWerror v => writeAt c.bases.ri 0x1C#32 v
  | .lwRiWerror => readAt c.bases.ri 0x1C#32
  | .lwPifRam j => readAt c.bases.pifRam (4#32 * j.setWidth 32)
  | .swPifRam j v => writeAt c.bases.pifRam (4#32 * j.setWidth 32) v
  | .lwMiReserved off => readAt c.bases.mi (off.setWidth 32)
  | .swMiReserved off v => writeAt c.bases.mi (off.setWidth 32) v
  | .lwAiReserved off => readAt c.bases.ai (off.setWidth 32)
  | .swAiReserved off v => writeAt c.bases.ai (off.setWidth 32) v
  | .lwSiReserved off => readAt c.bases.si (off.setWidth 32)
  | .swSiReserved off v => writeAt c.bases.si (off.setWidth 32) v
  | .lwDpcReserved off => readAt c.bases.dpc (off.setWidth 32)
  | .swDpcReserved off v => writeAt c.bases.dpc (off.setWidth 32) v
  | .lwRiReserved off => readAt c.bases.ri (off.setWidth 32)
  | .swRiReserved off v => writeAt c.bases.ri (off.setWidth 32) v
  | .lbMem a => .bus (.read a .w1)
  | .sbMem a v => .bus (.write a (.b v))
  | .lhMem a => .bus (.read a .w2)
  | .shMem a v => .bus (.write a (.h v))
  | .lwMem a => .bus (.read a .w4)
  | .swMem a v => .bus (.write a (.w v))
  | .ldMem a => .bus (.read a .w8)
  | .sdMem a v => .bus (.write a (.d v))
  | .extR a n => .bus (.read a n)
  | .extW a d => .bus (.write a d)
  | .unmappedR a n => .bus (.read a n)
  | .unmappedW a d => .bus (.write a d)
  | .refuseUnsupportedWidth op => .bus op
  | .refuseMisalignedBusAccess op => .bus op
  | .portQueryIrq => .port (portWord 0x01#8 0#8) 0
  | .portAdvance t => .port (portWord 0x02#8 0#8) t
  | .portConstruct => .port (portWord 0x03#8 0#8) 0
  | .portRaiseSource k => .port (portWord 0x10#8 k.number) 0
  | .portClearSource k => .port (portWord 0x11#8 k.number) 0
  | .portQueryCmdReady => .port (portWord 0x20#8 0#8) 0
  | .portQueryFrameFinished => .port (portWord 0x21#8 0#8) 0
  | .portExportWords => .port (portWord 0x22#8 0#8) 0
  | .portExportRowLengths => .port (portWord 0x23#8 0#8) 0
  | .portClearCommands => .port (portWord 0x24#8 0#8) 0
  | .portClearFrameFinished => .port (portWord 0x25#8 0#8) 0
  | .refuseUnknownPortOp word => .port word 0

/-- DESIGN CHOICE (log entry 7). The request of an opcode-table word: the table gives 32 bits and says neither BUS or
PORT nor dir, n, wdata and t. A word that R113 names is that port operation with t = 0; every other word is the
4-byte read of that address. Safe: no step of the machine uses it. -/
def tableRequest (word : Word) : Request :=
  if portWordKnown word then .port word 0 else .bus (.read word .w4)

/-- The operation of an opcode-table word under the default parameters; none where the word is not 32 bits long. -/
def decodeTableWord (nbits w : Nat) : Option Instr :=
  if nbits = 32 ∧ w < 2 ^ 32 then some (decode Config.default (tableRequest (BitVec.ofNat 32 w))) else none

end Sys2Proof
end

