-- ==== Sys2Proof/Machine/State.lean ====
section
/-! DEFINITION. The state of the block (spec/10_state.md), the reasons it can stop, and the state after reset
(spec/70_reset_and_hazards.md R341). All plain data. -/

namespace Sys2Proof.Machine

open Sys2Proof

/-- The Interrupt Register (R20 .. R23). -/
structure InterruptRegister where
  cause    : BitVec 6
  mask     : BitVec 6
  initLen  : BitVec 7
  initMode : Bool
  ebusTest : Bool
  rdramReg : Bool
deriving DecidableEq, Repr

/-- A slot of the audio FIFO: "source address, transfer length, computed duration" (R30). -/
structure AudioSlot where
  addr : BitVec 24
  len  : BitVec 18
  dur  : Nat
deriving DecidableEq, Repr

/-- The Audio DMA Engine (R24 .. R32); `fifo` is head first. -/
structure AudioEngine where
  dramAddr : BitVec 24
  len      : BitVec 18
  enable   : Bool
  dacrate  : BitVec 14
  bitrate  : BitVec 4
  freq     : Nat
  fifo     : List AudioSlot
  ready    : Bool
  elapsed  : Nat
deriving DecidableEq, Repr

/-- The Serial DMA Engine (R33 .. R38). `dir` is NONE, READ or WRITE (R36); the length of a transaction is the
constant 64 of R36, the length of `pifRam`. -/
structure SerialEngine where
  dramAddr    : BitVec 24
  pifAddr     : Word
  dmaBusy     : Bool
  ioBusy      : Bool
  readPending : Bool
  dmaError    : Bool
  pchState    : BitVec 4
  dmaState    : BitVec 4
  intr        : Bool
  dir         : Option Dir
  channel     : Nat
  cost        : Nat
  elapsed     : Nat
  pifRam      : Vector Byte 64
deriving DecidableEq, Repr

/-- The Display Command Interface (R39 .. R45). `finish` is dpc_end ("end" is a word of Lean). -/
structure DisplayInterface where
  start         : BitVec 24
  finish        : BitVec 24
  current       : BitVec 24
  xbus          : Bool
  freeze        : Bool
  flush         : Bool
  skip          : Nat
  rows          : List (List Word)
  cmdReady      : Bool
  frameFinished : Bool
deriving DecidableEq, Repr

/-- The Calibration Register Block, `ri[0]` .. `ri[7]` in offset order (R46). -/
structure CalibrationBlock where
  mode        : Word
  config      : Word
  currentLoad : Word
  select      : Word
  refresh     : Word
  latency     : Word
  rerror      : Word
  werror      : Word
deriving DecidableEq, Repr

/-- The reasons of a refusal that the block records (R312). -/
inductive RefuseReason where
  | unsupportedWidth (addr : Word) (n : Width)
  | misalignedBusAccess (addr : Word) (n : Width)
  | unknownPortOp (word : Word)
deriving DecidableEq, Repr

/-- MODEL FIELD (log entry 5). What the operation last performed returned to its issuer: nothing, the data of a bus
read (R100), a boolean of a query, the sequences of the exports (R113), or its refusal (R311). -/
inductive Answer where
  | nothing
  | data (d : Data)
  | flag (b : Bool)
  | words (ws : List Word)
  | lengths (ns : List Nat)
  | refused (r : RefuseReason)
deriving DecidableEq, Repr

/-- The events the block hands out: AudioOut to the host (R186), ExtWrite to an external owner (R154). -/
inductive Event where
  | audioOut (addr : BitVec 24) (len : BitVec 18) (freq : Nat) (bytes : List Byte)
  | extWrite (addr : Word) (data : Data)
deriving DecidableEq, Repr

/-- MODEL FIELD (log entry 6). Does the block exist (R50)? `absent` before its one CONSTRUCT, `live` from then on. -/
inductive Phase where
  | absent
  | live
deriving DecidableEq, Repr

/-- The state of the machine: the block's state of spec/10_state.md, its parameters (R6), and the model's own fields
(log entries 2, 4, 5, 6). -/
structure State where
  /-- the parameters of R6, chosen at construction -/
  cfg      : Config
  mi       : InterruptRegister
  ai       : AudioEngine
  si       : SerialEngine
  dpc      : DisplayInterface
  ri       : CalibrationBlock
  /-- the memory image (R47) -/
  mem      : Memory
  /-- the refusal record (R312): set at the first refusal, never cleared -/
  refused  : Option RefuseReason
  /-- model field: does the block exist -/
  phase    : Phase
  /-- model field: can the host allocate the memory image (R314) -/
  allocOk  : Bool
  /-- model field: what the last operation returned -/
  answer   : Answer
  /-- model field: the events handed out, oldest first -/
  events   : List Event
  /-- model field: the number of the next free value -/
  draws    : Nat
  /-- model field: the operations issued and not yet performed, oldest first -/
  pending  : List Issued
deriving DecidableEq, Repr

/-- Why the machine can stop. -/
inductive Fault where
  /-- Raised by `step` when a DPC_END write is held (R313) and no other agent has issued an operation, and by exec of
  that write while `dpc_frame_finished`: "no step is enabled for it". A stuck state, as spec/93 item 11 says. Safe. -/
  | heldDpcEnd
  /-- Raised by CONSTRUCT when the memory image cannot be allocated (R314): "After a failure there is no block". Safe. -/
  | constructionFailure
  /-- Raised by `step` for any operation but CONSTRUCT while no block exists: CONSTRUCT is the first move (R340). Safe. -/
  | noBlock
  /-- Raised by exec of a MEM operation whose operand is not in the memory image (R152); no request decodes to one.
  Safe: the model stops where the hardware has no such operation. -/
  | outsideImage
deriving DecidableEq, Repr

/-- Why an operation has no meaning. -/
inductive Refusal where
  /-- Raised by exec for an instruction that has no meaning yet; no arm is left so. Safe. -/
  | notModelled (mnemonic : String)
deriving DecidableEq, Repr

/-- The state after CONSTRUCT under the parameters c: every element of R341 at its value there, `refused` none (R340);
the model's own fields at the values of log entries 2, 4, 5 and 6. -/
def State.fresh (c : Config) : State where
  cfg := c
  mi :=
    { cause := 0#6, mask := 0#6, initLen := 0#7, initMode := false, ebusTest := false, rdramReg := false }
  ai :=
    { dramAddr := 0#24, len := 0#18, enable := false, dacrate := 0#14, bitrate := 0#4, freq := c.viClock / 1,
      fifo := [], ready := true, elapsed := 0 }
  si :=
    { dramAddr := 0#24, pifAddr := 0#32, dmaBusy := false, ioBusy := false, readPending := false, dmaError := false,
      pchState := 0#4, dmaState := 0#4, intr := false, dir := none, channel := 0, cost := 0, elapsed := 0,
      pifRam := Vector.replicate 64 0#8 }
  dpc :=
    { start := 0#24, finish := 0#24, current := 0#24, xbus := false, freeze := false, flush := false, skip := 0,
      rows := [], cmdReady := false, frameFinished := false }
  ri :=
    { mode := 0#32, config := 0#32, currentLoad := 0#32, select := 0#32, refresh := 0#32, latency := 0#32,
      rerror := 0#32, werror := 0#32 }
  mem := c.memInit
  refused := none
  phase := .live
  allocOk := true
  answer := .nothing
  events := []
  draws := 0
  pending := []

/-- The machine right after reset: the block just constructed, every parameter at R6's default (log entry 1). -/
def State.reset : State := State.fresh Config.default

end Sys2Proof.Machine
end

