-- ==== Sys2Proof/Machine/Memory.lean ====
section
/-! DEFINITION. The memory image as a canonical list of cells, byte order (spec/20_memory.md R76) and the DMA accesses
(R79). -/

namespace Sys2Proof

namespace Machine

/-- DESIGN CHOICE (log entry 3). What an address that the list does not hold reads as: 0x00, the simulator's value of
P_MEM_INIT (R6, R47). Unsafe for a claim that starts from State.reset; another image is Config.memInit. -/
def unlistedByte : Byte := 0#8

end Machine

/-- The byte at an address. -/
def Memory.read : Memory → Nat → Byte
  | [], _ => Machine.unlistedByte
  | (k, x) :: m, a => if a = k then x else if a < k then Machine.unlistedByte else Memory.read m a

/-- The image with a byte written, in canonical form: a cell that would hold what an unlisted address reads as is
not listed. -/
def Memory.write : Memory → Nat → Byte → Memory
  | [], a, b => if b = Machine.unlistedByte then [] else [(a, b)]
  | (k, x) :: m, a, b =>
    if a = k then (if b = Machine.unlistedByte then m else (a, b) :: m)
    else if a < k then (if b = Machine.unlistedByte then (k, x) :: m else (a, b) :: (k, x) :: m)
    else (k, x) :: Memory.write m a b

/-- Every listed address is above lo, and the addresses rise strictly; no cell holds the unlisted byte. -/
def Memory.sortedAbove : Option Nat → Memory → Bool
  | _, [] => true
  | lo, (k, x) :: m =>
    (match lo with
      | none => true
      | some l => decide (l < k)) && decide (x ≠ Machine.unlistedByte) && Memory.sortedAbove (some k) m

/-- The canonical form. -/
def Memory.wf (m : Memory) : Bool := Memory.sortedAbove none m

/-- Every listed address is below n: the image has no other bytes (R47). -/
def Memory.within (n : Nat) (m : Memory) : Bool := m.all fun cell => decide (cell.1 < n)

/-- Bytes written at rising addresses from a. -/
def Memory.writeBytes : Memory → Nat → List Byte → Memory
  | m, _, [] => m
  | m, a, b :: bs => Memory.writeBytes (m.write a b) (a + 1) bs

/-- `MemRead(a, n)`, big-endian (R76). -/
def Memory.load (m : Memory) (a : Nat) : Width → Data
  | .w1 => .b (m.read a)
  | .w2 => .h (m.read a ++ m.read (a + 1))
  | .w4 => .w (m.read a ++ m.read (a + 1) ++ m.read (a + 2) ++ m.read (a + 3))
  | .w8 =>
    .d (m.read a ++ m.read (a + 1) ++ m.read (a + 2) ++ m.read (a + 3) ++ m.read (a + 4) ++ m.read (a + 5)
      ++ m.read (a + 6) ++ m.read (a + 7))

/-- `MemWrite(a, n, v)`, big-endian (R76). -/
def Memory.store (m : Memory) (a : Nat) (d : Data) : Memory := m.writeBytes a d.bytes

namespace Machine

/-- `DmaRead(a)`: beyond the image 0 (R79). Addresses are not wrapped at 24 bits (R8;
log entry 14, UNVERIFIED on the platform). -/
def dmaRead (size : Nat) (m : Memory) (a : Nat) : Byte := if a < size then m.read a else 0#8

/-- `DmaWrite(a, b)`: beyond the image no effect (R79). -/
def dmaWrite (size : Nat) (m : Memory) (a : Nat) (b : Byte) : Memory := if a < size then m.write a b else m

/-- `DmaRead32(a)`, big-endian (R79). -/
def dmaRead32 (size : Nat) (m : Memory) (a : Nat) : Word :=
  dmaRead size m a ++ dmaRead size m (a + 1) ++ dmaRead size m (a + 2) ++ dmaRead size m (a + 3)

/-- `[DmaRead(a + i) for i in 0 .. n-1]`. -/
def dmaReadBytes (size : Nat) (m : Memory) (a n : Nat) : List Byte :=
  (List.range n).map fun i => dmaRead size m (a + i)

/-- `for i: DmaWrite(a + i, bs[i])`. -/
def dmaWriteBytes (size : Nat) : Memory → Nat → List Byte → Memory
  | m, _, [] => m
  | m, a, b :: bs => dmaWriteBytes size (dmaWrite size m a b) (a + 1) bs

end Machine

end Sys2Proof
end

