-- ==== Sys2Proof/Machine/Flags.lean ====
section
/-! DEFINITION. The flag computations: the bit-pair primitive (spec/00_scope.md R10), the cause bits and the aggregate
interrupt (spec/40_interrupt.md R130, R139, R140), and the register words assembled from flags (spec/30_encoding.md
R104, R107, R109, R111). -/

namespace Sys2Proof.Machine

open Sys2Proof

/-- `BitPair(old, v, c, s)`: clear bit c, then set bit s, so that a word with both sets (R10). -/
def bitPair (old : Bool) (v : Word) (c s : Nat) : Bool :=
  let t := if v.getLsbD c then false else old
  if v.getLsbD s then true else t

/-- The six interrupt sources (R20). -/
inductive Source where
  | sp
  | si
  | ai
  | vi
  | pi
  | dp
deriving DecidableEq, Repr

/-- The bit number k of a source (R20). -/
def Source.bit : Source → Nat
  | .sp => 0
  | .si => 1
  | .ai => 2
  | .vi => 3
  | .pi => 4
  | .dp => 5

/-- A word of six flags with flag k alone. -/
def Source.flag (k : Source) : BitVec 6 := 1#6 <<< k.bit

/-- The source of an owner outside the block (R141). -/
def extSource : ExtSource → Source
  | .sp => .sp
  | .vi => .vi
  | .pi => .pi

/-- `irq_pending = ((mi_cause & mi_mask) != 0)` (R130). -/
def irqPending (s : State) : Bool := decide (s.mi.cause &&& s.mi.mask ≠ 0#6)

/-- One mask bit of a bit-pair MI_MASK write, at its place: clear bit 2k, set bit 2k+1 (R136). -/
def maskPairBit (old : BitVec 6) (v : Word) (k : Nat) : BitVec 6 :=
  if bitPair (old.getLsbD k) v (2 * k) (2 * k + 1) then 1#6 <<< k else 0#6

/-- The mask after a bit-pair MI_MASK write: k = 0..5 (R136). -/
def maskPairs (old : BitVec 6) (v : Word) : BitVec 6 :=
  maskPairBit old v 0 ||| maskPairBit old v 1 ||| maskPairBit old v 2 ||| maskPairBit old v 3 ||| maskPairBit old v 4
    ||| maskPairBit old v 5

/-- A flag at bit i of a register word. -/
def flagBit (b : Bool) (i : Nat) : Word := if b then 1#32 <<< i else 0#32

/-- The MI_MODE read word (R104, R132). -/
def miModeWord (m : InterruptRegister) : Word :=
  flagBit m.rdramReg 9 ||| flagBit m.ebusTest 8 ||| flagBit m.initMode 7 ||| m.initLen.setWidth 32

/-- Is the FIFO full (R107)? -/
def AudioEngine.full (a : AudioEngine) : Bool := a.fifo.length == 2

/-- Does the FIFO hold a slot (R107)? -/
def AudioEngine.busy (a : AudioEngine) : Bool := decide (1 ≤ a.fifo.length)

/-- The AI_STATUS read word (R107, R181). -/
def aiStatusWord (a : AudioEngine) : Word :=
  flagBit a.full 31 ||| flagBit a.busy 30 ||| flagBit a.enable 25 ||| flagBit a.full 0

/-- The SI_STATUS read word (R109, R205). -/
def siStatusWord (e : SerialEngine) : Word :=
  flagBit e.intr 12 ||| e.dmaState.setWidth 32 <<< 8 ||| e.pchState.setWidth 32 <<< 4 ||| flagBit e.dmaError 3
    ||| flagBit e.readPending 2 ||| flagBit e.ioBusy 1 ||| flagBit e.dmaBusy 0

/-- The DPC_STATUS read word: the pipeline-busy indicators read 0, command-buffer ready reads 1 (R111, R248). -/
def dpcStatusWord (d : DisplayInterface) : Word :=
  flagBit d.flush 2 ||| flagBit d.freeze 1 ||| flagBit d.xbus 0 ||| 1#32 <<< 7

end Sys2Proof.Machine
end

