-- ==== Sys2Proof/Machine/Operands.lean ====
section
/-! DEFINITION. The operand forms: the field masks of register writes (spec/30_encoding.md R114), the value of an
unmapped read (spec/41_bus.md R155), and the words of PIF RAM (spec/20_memory.md R91). -/

namespace Sys2Proof.Machine

open Sys2Proof

/-- `v & 0x00FF_FFF8`: a 24-bit address or pointer, held 8-byte aligned (R106, R108, R110). -/
def pointerField (v : Word) : BitVec 24 := (v &&& 0x00FFFFF8#32).setWidth 24

/-- `v & 0x0003_FFF8`: an 18-bit length, held 8-byte aligned (R106). -/
def lengthField (v : Word) : BitVec 18 := (v &&& 0x0003FFF8#32).setWidth 18

/-- `P_OPEN_BUS` at the width of the access: its low-order bytes, or both halves (R155). -/
def openBusData (c : Config) : Width → Data
  | .w1 => .b (c.openBus.setWidth 8)
  | .w2 => .h (c.openBus.setWidth 16)
  | .w4 => .w c.openBus
  | .w8 => .d (c.openBus ++ c.openBus)

/-- `PifRead(i)` (R9); only 0 .. 63 name a byte. -/
def pifRead (p : Vector Byte 64) (i : Nat) : Byte := (p[i]?).getD 0#8

/-- `PifWrite(i, b)` (R9). -/
def pifWrite (p : Vector Byte 64) (i : Nat) (b : Byte) : Vector Byte 64 := p.setIfInBounds i b

/-- `[pif_ram[i + j] for j in 0 .. n-1]`. -/
def pifBytes (p : Vector Byte 64) (i n : Nat) : List Byte := (List.range n).map fun j => pifRead p (i + j)

/-- `for j: pif_ram[i + j] <- bs[j]`. -/
def pifWriteBytes : Vector Byte 64 → Nat → List Byte → Vector Byte 64
  | p, _, [] => p
  | p, i, b :: bs => pifWriteBytes (pifWrite p i b) (i + 1) bs

/-- Word j of PIF RAM, big-endian (R159). -/
def pifLoad (p : Vector Byte 64) (j : BitVec 4) : Word :=
  pifRead p (4 * j.toNat) ++ pifRead p (4 * j.toNat + 1) ++ pifRead p (4 * j.toNat + 2) ++ pifRead p (4 * j.toNat + 3)

/-- Word j of PIF RAM written, big-endian (R160). -/
def pifStore (p : Vector Byte 64) (j : BitVec 4) (v : Word) : Vector Byte 64 :=
  pifWriteBytes p (4 * j.toNat) (Data.w v).bytes

end Sys2Proof.Machine
end

