-- ==== Sys2Proof/Machine/Ops.lean ====
section
/-! DEFINITION. The named operations over the state: one update for each component, the interrupt ports SetCause and
ClearCause (spec/40_interrupt.md R139, R140), the recorded refusal (spec/60_exceptions.md R312), answers, events, free
values and the accesses to the memory image.

The block takes no exception (R310, R317) and has no return from one (R318): what it has in their place is the cause
bit of a source, set by setCause when its event happens and cleared by clearCause at its owner. -/

namespace Sys2Proof.Machine

open Sys2Proof

/-- The outcome of an operation. -/
abbrev Result := Host.Outcome State Fault Refusal

def State.withMi (s : State) (x : InterruptRegister) : State := { s with mi := x }
def State.withAi (s : State) (x : AudioEngine) : State := { s with ai := x }
def State.withSi (s : State) (x : SerialEngine) : State := { s with si := x }
def State.withDpc (s : State) (x : DisplayInterface) : State := { s with dpc := x }
def State.withRi (s : State) (x : CalibrationBlock) : State := { s with ri := x }
def State.withMem (s : State) (x : Memory) : State := { s with mem := x }
def State.withRefused (s : State) (x : Option RefuseReason) : State := { s with refused := x }
def State.withAnswer (s : State) (x : Answer) : State := { s with answer := x }
def State.withEvents (s : State) (x : List Event) : State := { s with events := x }
def State.withDraws (s : State) (x : Nat) : State := { s with draws := x }
def State.withPending (s : State) (x : List Issued) : State := { s with pending := x }

/-- An operation that succeeds and returns nothing. -/
def done (s : State) : Result := .next (s.withAnswer .nothing)

/-- An operation that succeeds and returns a value. -/
def returning (a : Answer) (s : State) : Result := .next (s.withAnswer a)

/-- A register read: it returns a 32-bit word and changes no state of the block (R80). -/
def returningWord (v : Word) (s : State) : Result := returning (.data (.w v)) s

/-- `refuse(reason)`: no block state changes but the record, which the first refusal sets (R312). DEDUCED
(log entry 12): the machine goes on. -/
def refuse (r : RefuseReason) (s : State) : Result :=
  .next ((s.withRefused (s.refused.or (some r))).withAnswer (.refused r))

/-- `SetCause(k)`: `mi_cause[k] <- 1` (R139). -/
def setCause (k : Source) (s : State) : State := s.withMi { s.mi with cause := s.mi.cause ||| k.flag }

/-- `ClearCause(k)`: `mi_cause[k] <- 0` (R140). -/
def clearCause (k : Source) (s : State) : State := s.withMi { s.mi with cause := s.mi.cause &&& ~~~k.flag }

/-- `emit Event(...)` (R9). -/
def emit (e : Event) (s : State) : State := s.withEvents (s.events ++ [e])

/-- The next n free values are drawn (log entry 2). -/
def drawn (n : Nat) (s : State) : State := s.withDraws (s.draws + n)

/-- `MemRead` of a bus operation on the memory image (R152). DESIGN CHOICE (log entry 9): outside it, a stop. Safe. -/
def loadImage (a : Word) (n : Width) (s : State) : Result :=
  if a.toNat + n.bytes ≤ s.cfg.rdramBytes then returning (.data (s.mem.load a.toNat n)) s else .fault .outsideImage

/-- `MemWrite` of a bus operation on the memory image (R153). DESIGN CHOICE (log entry 9): outside it, a stop. Safe. -/
def storeImage (a : Word) (d : Data) (s : State) : Result :=
  if a.toNat + d.width.bytes ≤ s.cfg.rdramBytes then done (s.withMem (s.mem.store a.toNat d))
  else .fault .outsideImage

/-- A 4-byte access to a reserved offset reads `P_OPEN_BUS` (R161). -/
def readReserved (s : State) : Result := returningWord s.cfg.openBus s

end Sys2Proof.Machine
end

