-- ==== Sys2Proof/Machine/Audio.lean ====
section
/-! DEFINITION. The Audio DMA Engine: AI_DRAM_ADDR, AI_LEN, AI_CONTROL, AI_STATUS, AI_DACRATE, AI_BITRATE, and its
part of a time advance (spec/42_audio_dma.md). -/

namespace Sys2Proof.Machine

open Sys2Proof

/-- `Push(a, L)`: accepted only while the ready gate is true and a slot is free; otherwise nothing happens (R172). -/
def audioPush (a : BitVec 24) (len : BitVec 18) (s : State) : State :=
  if s.ai.ready && decide (s.ai.fifo.length < 2) then
    let slot : AudioSlot := ⟨a, len, s.cfg.duration len s.ai.dacrate s.ai.bitrate⟩
    let fifo := s.ai.fifo ++ [slot]
    emit (.audioOut a len s.ai.freq (dmaReadBytes s.cfg.rdramBytes s.mem a.toNat len.toNat))
      (s.withAi { s.ai with fifo := fifo, ready := if fifo.length = 2 then false else s.ai.ready })
  else s

/-- The AI_LEN write: the length is stored whether or not the push is accepted (R171). -/
def aiLenWrite (v : Word) (s : State) : State :=
  audioPush s.ai.dramAddr (lengthField v) (s.withAi { s.ai with len := lengthField v })

/-- `Pop()` (R185). -/
def audioPop (s : State) : State :=
  setCause .ai (s.withAi { s.ai with fifo := s.ai.fifo.tail, ready := true, elapsed := 0 })

/-- `AudioHandleDma(t)`: the counter does not run while the FIFO is empty, and at most one slot pops (R184). -/
def audioHandleDma (t : Nat) (s : State) : State :=
  match s.ai.fifo with
  | [] => s
  | slot :: _ =>
    let s := s.withAi { s.ai with elapsed := s.ai.elapsed + t }
    if slot.dur ≤ s.ai.elapsed then audioPop s else s

/-- AI_DRAM_ADDR write (R170). -/
def execSwAiDramAddr (v : Word) (s : State) : Host.Outcome State Fault Refusal :=
  done (s.withAi { s.ai with dramAddr := pointerField v })

/-- AI_DRAM_ADDR read (R178). -/
def execLwAiDramAddr (s : State) : Host.Outcome State Fault Refusal :=
  returningWord (s.ai.dramAddr.setWidth 32) s

/-- AI_LEN write: stores the length and attempts a push (R171). -/
def execSwAiLen (v : Word) (s : State) : Host.Outcome State Fault Refusal :=
  done (aiLenWrite v s)

/-- AI_LEN read: the last value written (R179). -/
def execLwAiLen (s : State) : Host.Outcome State Fault Refusal :=
  returningWord (s.ai.len.setWidth 32) s

/-- AI_CONTROL write: `ai_enable <- v[0]` (R174). -/
def execSwAiControl (v : Word) (s : State) : Host.Outcome State Fault Refusal :=
  done (s.withAi { s.ai with enable := v.getLsbD 0 })

/-- AI_CONTROL read (R180). -/
def execLwAiControl (s : State) : Host.Outcome State Fault Refusal :=
  returningWord (flagBit s.ai.enable 0) s

/-- AI_STATUS write: clears the AI cause, whatever the word (R175). -/
def execSwAiStatus (_v : Word) (s : State) : Host.Outcome State Fault Refusal :=
  done (clearCause .ai s)

/-- AI_STATUS read (R181). -/
def execLwAiStatus (s : State) : Host.Outcome State Fault Refusal :=
  returningWord (aiStatusWord s.ai) s

/-- AI_DACRATE write: also recomputes `ai_freq` (R176). -/
def execSwAiDacrate (v : Word) (s : State) : Host.Outcome State Fault Refusal :=
  done (s.withAi { s.ai with dacrate := v.setWidth 14, freq := s.cfg.dacFrequency (v.setWidth 14) })

/-- AI_DACRATE read (R182). -/
def execLwAiDacrate (s : State) : Host.Outcome State Fault Refusal :=
  returningWord (s.ai.dacrate.setWidth 32) s

/-- AI_BITRATE write (R177). -/
def execSwAiBitrate (v : Word) (s : State) : Host.Outcome State Fault Refusal :=
  done (s.withAi { s.ai with bitrate := v.setWidth 4 })

/-- AI_BITRATE read (R183). -/
def execLwAiBitrate (s : State) : Host.Outcome State Fault Refusal :=
  returningWord (s.ai.bitrate.setWidth 32) s

/-- A reserved offset of AI read (R161). -/
def execLwAiReserved (_off : BitVec 20) (s : State) : Host.Outcome State Fault Refusal :=
  readReserved s

/-- A reserved offset of AI written: no effect (R161). -/
def execSwAiReserved (_off : BitVec 20) (_v : Word) (s : State) : Host.Outcome State Fault Refusal :=
  done s

end Sys2Proof.Machine
end

