-- ==== Sys2Proof/Machine/Bus.lean ====
section
/-! DEFINITION. The bus operations that no component owns: the memory image, external ranges, unmapped addresses, and
the refused accesses (spec/41_bus.md R152 .. R158). -/

namespace Sys2Proof.Machine

open Sys2Proof

/-- LB of the memory image (R152). -/
def execLbMem (a : Word) (s : State) : Host.Outcome State Fault Refusal :=
  loadImage a .w1 s

/-- SB of the memory image (R153). -/
def execSbMem (a : Word) (v : BitVec 8) (s : State) : Host.Outcome State Fault Refusal :=
  storeImage a (.b v) s

/-- LH of the memory image (R152). -/
def execLhMem (a : Word) (s : State) : Host.Outcome State Fault Refusal :=
  loadImage a .w2 s

/-- SH of the memory image (R153). -/
def execShMem (a : Word) (v : BitVec 16) (s : State) : Host.Outcome State Fault Refusal :=
  storeImage a (.h v) s

/-- LW of the memory image (R152). -/
def execLwMem (a : Word) (s : State) : Host.Outcome State Fault Refusal :=
  loadImage a .w4 s

/-- SW of the memory image (R153). -/
def execSwMem (a : Word) (v : BitVec 32) (s : State) : Host.Outcome State Fault Refusal :=
  storeImage a (.w v) s

/-- LD of the memory image (R152). -/
def execLdMem (a : Word) (s : State) : Host.Outcome State Fault Refusal :=
  loadImage a .w8 s

/-- SD of the memory image (R153). -/
def execSdMem (a : Word) (v : BitVec 64) (s : State) : Host.Outcome State Fault Refusal :=
  storeImage a (.d v) s

/-- EXT.R: a free value, the external owner's answer; no block state changes (R154). -/
def execExtR (a : Word) (n : Width) (s : State) : Host.Outcome State Fault Refusal :=
  returning (.data (Data.ofBits (Config.extRead s.draws a n) n)) (drawn 1 s)

/-- EXT.W: the write is handed to the external owner; no block state changes (R154). -/
def execExtW (a : Word) (d : Data) (s : State) : Host.Outcome State Fault Refusal :=
  done (emit (.extWrite a d) s)

/-- UNMAPPED.R (R155). -/
def execUnmappedR (_a : Word) (n : Width) (s : State) : Host.Outcome State Fault Refusal :=
  returning (.data (openBusData s.cfg n)) s

/-- UNMAPPED.W: no effect (R156). -/
def execUnmappedW (_a : Word) (_d : Data) (s : State) : Host.Outcome State Fault Refusal :=
  done s

/-- `refuse(UnsupportedWidth(addr, n))` (R157, R312). -/
def execRefuseUnsupportedWidth (op : BusOp) (s : State) : Host.Outcome State Fault Refusal :=
  refuse (.unsupportedWidth op.addr op.width) s

/-- `refuse(MisalignedBusAccess(addr, n))` (R158, R312). -/
def execRefuseMisalignedBusAccess (op : BusOp) (s : State) : Host.Outcome State Fault Refusal :=
  refuse (.misalignedBusAccess op.addr op.width) s

end Sys2Proof.Machine
end

