-- ==== Sys2Proof/Machine/Calibration.lean ====
section
/-! DEFINITION. The Calibration Register Block: eight plain 32-bit registers with no other effect (spec/45_calibration.md). -/

namespace Sys2Proof.Machine

open Sys2Proof

/-- RI_MODE write: all 32 bits (R280). -/
def execSwRiMode (v : Word) (s : State) : Host.Outcome State Fault Refusal :=
  done (s.withRi { s.ri with mode := v })

/-- RI_MODE read (R280). -/
def execLwRiMode (s : State) : Host.Outcome State Fault Refusal :=
  returningWord s.ri.mode s

/-- RI_CONFIG write: all 32 bits (R281). -/
def execSwRiConfig (v : Word) (s : State) : Host.Outcome State Fault Refusal :=
  done (s.withRi { s.ri with config := v })

/-- RI_CONFIG read (R281). -/
def execLwRiConfig (s : State) : Host.Outcome State Fault Refusal :=
  returningWord s.ri.config s

/-- RI_CURRENT_LOAD write: all 32 bits (R282). -/
def execSwRiCurrentLoad (v : Word) (s : State) : Host.Outcome State Fault Refusal :=
  done (s.withRi { s.ri with currentLoad := v })

/-- RI_CURRENT_LOAD read (R282). -/
def execLwRiCurrentLoad (s : State) : Host.Outcome State Fault Refusal :=
  returningWord s.ri.currentLoad s

/-- RI_SELECT write: all 32 bits (R283). -/
def execSwRiSelect (v : Word) (s : State) : Host.Outcome State Fault Refusal :=
  done (s.withRi { s.ri with select := v })

/-- RI_SELECT read (R283). -/
def execLwRiSelect (s : State) : Host.Outcome State Fault Refusal :=
  returningWord s.ri.select s

/-- RI_REFRESH write: all 32 bits (R284). -/
def execSwRiRefresh (v : Word) (s : State) : Host.Outcome State Fault Refusal :=
  done (s.withRi { s.ri with refresh := v })

/-- RI_REFRESH read (R284). -/
def execLwRiRefresh (s : State) : Host.Outcome State Fault Refusal :=
  returningWord s.ri.refresh s

/-- RI_LATENCY write: all 32 bits (R285). -/
def execSwRiLatency (v : Word) (s : State) : Host.Outcome State Fault Refusal :=
  done (s.withRi { s.ri with latency := v })

/-- RI_LATENCY read (R285). -/
def execLwRiLatency (s : State) : Host.Outcome State Fault Refusal :=
  returningWord s.ri.latency s

/-- RI_RERROR write: all 32 bits (R286). -/
def execSwRiRerror (v : Word) (s : State) : Host.Outcome State Fault Refusal :=
  done (s.withRi { s.ri with rerror := v })

/-- RI_RERROR read (R286). -/
def execLwRiRerror (s : State) : Host.Outcome State Fault Refusal :=
  returningWord s.ri.rerror s

/-- RI_WERROR write: all 32 bits (R287). -/
def execSwRiWerror (v : Word) (s : State) : Host.Outcome State Fault Refusal :=
  done (s.withRi { s.ri with werror := v })

/-- RI_WERROR read (R287). -/
def execLwRiWerror (s : State) : Host.Outcome State Fault Refusal :=
  returningWord s.ri.werror s

/-- A reserved offset of RI read (R161, R288). -/
def execLwRiReserved (_off : BitVec 20) (s : State) : Host.Outcome State Fault Refusal :=
  readReserved s

/-- A reserved offset of RI written: no effect (R161, R288). -/
def execSwRiReserved (_off : BitVec 20) (_v : Word) (s : State) : Host.Outcome State Fault Refusal :=
  done s

end Sys2Proof.Machine
end

