-- ==== Sys2Proof/Machine/Display.lean ====
section
/-! DEFINITION. The Display Command Interface: its registers, the ingestion of a row, the scan for the synchronization
command, and the consumer ports (spec/44_display_cmd.md). -/

namespace Sys2Proof.Machine

open Sys2Proof

/-- `ReadCmdWord(a)`, the i-th word of a row (R242): the memory image, or with `dpc_xbus` a free value, the answer of
the signal processor's data memory at the address within 4 KiB. -/
def readCmdWord (s : State) (i a : Nat) : Word :=
  if s.dpc.xbus then (Config.extRead (s.draws + i) (0x04000000#32 + (BitVec.ofNat 32 a &&& 0xFFF#32)) .w4).setWidth 32
  else dmaRead32 s.cfg.rdramBytes s.mem a

/-- The number of words of [current, finish) (R241). -/
def rowLength (current finish : BitVec 24) : Nat :=
  if current < finish then (finish.toNat - current.toNat) / 4 else 0

/-- The words that a DPC_END write ingests, in ascending address order (R241, R43). -/
def ingestedRow (s : State) (finish : BitVec 24) : List Word :=
  (List.range (rowLength s.dpc.current finish)).map fun i => readCmdWord s i (s.dpc.current.toNat + 4 * i)

/-- The id of a command, bits 29:24 of its first word (R117). -/
def cmdId (w : Word) : BitVec 6 := w.extractLsb' 24 6

/-- `Scan(row)` from a skip count: the skip count after it, and whether a synchronization command begins in it (R243). -/
def scanRow (c : Config) : Nat → List Word → Nat × Bool
  | skip, [] => (skip, false)
  | skip, w :: ws =>
    if 0 < skip then scanRow c (skip - 1) ws
    else
      let r := scanRow c (2 * c.cmdLen (cmdId w) - 1) ws
      (r.1, decide (cmdId w = c.syncFullId) || r.2)

/-- The DPC_START write: start and current (R240). -/
def dpcStartWrite (v : Word) (s : State) : State :=
  s.withDpc { s.dpc with start := pointerField v, current := pointerField v }

/-- The DPC_END write once it is not held (R241). -/
def dpcEndWrite (v : Word) (s : State) : State :=
  let finish := pointerField v
  let row := ingestedRow s finish
  let scan := scanRow s.cfg s.dpc.skip row
  let s := if s.dpc.xbus then drawn row.length s else s
  let s := s.withDpc { s.dpc with
    finish := finish
    current := finish
    skip := scan.1
    rows := if row = [] then s.dpc.rows else s.dpc.rows ++ [row]
    cmdReady := if row = [] then s.dpc.cmdReady else true
    frameFinished := if scan.2 then true else s.dpc.frameFinished }
  if scan.2 then setCause .dp s else s

/-- The DPC_STATUS write; bits 6 to 9 clear counters that are no state (R244). -/
def dpcStatusWrite (v : Word) (s : State) : State :=
  s.withDpc { s.dpc with
    xbus := bitPair s.dpc.xbus v 0 1
    freeze := bitPair s.dpc.freeze v 2 3
    flush := bitPair s.dpc.flush v 4 5 }

/-- DPC_START write (R240). -/
def execSwDpcStart (v : Word) (s : State) : Host.Outcome State Fault Refusal :=
  done (dpcStartWrite v s)

/-- DPC_START read (R245). -/
def execLwDpcStart (s : State) : Host.Outcome State Fault Refusal :=
  returningWord (s.dpc.start.setWidth 32) s

/-- DPC_END write: ingests a row, or holds while the frame-finished flag is true (R241, R313). -/
def execSwDpcEnd (v : Word) (s : State) : Host.Outcome State Fault Refusal :=
  if s.dpc.frameFinished then .fault .heldDpcEnd else done (dpcEndWrite v s)

/-- DPC_END read (R246). -/
def execLwDpcEnd (s : State) : Host.Outcome State Fault Refusal :=
  returningWord (s.dpc.finish.setWidth 32) s

/-- DPC_CURRENT write: no effect (R250). -/
def execSwDpcCurrent (_v : Word) (s : State) : Host.Outcome State Fault Refusal :=
  done s

/-- DPC_CURRENT read (R247). -/
def execLwDpcCurrent (s : State) : Host.Outcome State Fault Refusal :=
  returningWord (s.dpc.current.setWidth 32) s

/-- DPC_STATUS write (R244). -/
def execSwDpcStatus (v : Word) (s : State) : Host.Outcome State Fault Refusal :=
  done (dpcStatusWrite v s)

/-- DPC_STATUS read (R248). -/
def execLwDpcStatus (s : State) : Host.Outcome State Fault Refusal :=
  returningWord (dpcStatusWord s.dpc) s

/-- DPC_CLOCK write: no effect (R250). -/
def execSwDpcClock (_v : Word) (s : State) : Host.Outcome State Fault Refusal :=
  done s

/-- DPC_CLOCK read: 0 (R249). -/
def execLwDpcClock (s : State) : Host.Outcome State Fault Refusal :=
  returningWord 0#32 s

/-- DPC_BUFBUSY write: no effect (R250). -/
def execSwDpcBufbusy (_v : Word) (s : State) : Host.Outcome State Fault Refusal :=
  done s

/-- DPC_BUFBUSY read: 0 (R249). -/
def execLwDpcBufbusy (s : State) : Host.Outcome State Fault Refusal :=
  returningWord 0#32 s

/-- DPC_PIPEBUSY write: no effect (R250). -/
def execSwDpcPipebusy (_v : Word) (s : State) : Host.Outcome State Fault Refusal :=
  done s

/-- DPC_PIPEBUSY read: 0 (R249). -/
def execLwDpcPipebusy (s : State) : Host.Outcome State Fault Refusal :=
  returningWord 0#32 s

/-- DPC_TMEM write: no effect (R250). -/
def execSwDpcTmem (_v : Word) (s : State) : Host.Outcome State Fault Refusal :=
  done s

/-- DPC_TMEM read: 0 (R249). -/
def execLwDpcTmem (s : State) : Host.Outcome State Fault Refusal :=
  returningWord 0#32 s

/-- A reserved offset of DPC read (R161). -/
def execLwDpcReserved (_off : BitVec 20) (s : State) : Host.Outcome State Fault Refusal :=
  readReserved s

/-- A reserved offset of DPC written: no effect (R161). -/
def execSwDpcReserved (_off : BitVec 20) (_v : Word) (s : State) : Host.Outcome State Fault Refusal :=
  done s

/-- QUERY_CMD_READY (R251). -/
def execPortQueryCmdReady (s : State) : Host.Outcome State Fault Refusal :=
  returning (.flag s.dpc.cmdReady) s

/-- QUERY_FRAME_FINISHED (R252). -/
def execPortQueryFrameFinished (s : State) : Host.Outcome State Fault Refusal :=
  returning (.flag s.dpc.frameFinished) s

/-- EXPORT_WORDS: a copy of `concat(dpc_rows)` (R253). -/
def execPortExportWords (s : State) : Host.Outcome State Fault Refusal :=
  returning (.words s.dpc.rows.flatten) s

/-- EXPORT_ROW_LENGTHS: `[|r| for r in dpc_rows]` (R254). -/
def execPortExportRowLengths (s : State) : Host.Outcome State Fault Refusal :=
  returning (.lengths (s.dpc.rows.map List.length)) s

/-- CLEAR_COMMANDS: rows and ready together (R255). -/
def execPortClearCommands (s : State) : Host.Outcome State Fault Refusal :=
  done (s.withDpc { s.dpc with rows := [], cmdReady := false })

/-- CLEAR_FRAME_FINISHED; the DP cause is not touched (R256). -/
def execPortClearFrameFinished (s : State) : Host.Outcome State Fault Refusal :=
  done (s.withDpc { s.dpc with frameFinished := false })

end Sys2Proof.Machine
end

