-- ==== Sys2Proof/Machine/Interrupt.lean ====
section
/-! DEFINITION. The Interrupt Register: MI_MODE, MI_VERSION, MI_INTR, MI_MASK (spec/40_interrupt.md). -/

namespace Sys2Proof.Machine

open Sys2Proof

/-- The MI_MODE write, in ascending bit order; bits 31:14 are ignored (R131). -/
def miModeWrite (v : Word) (s : State) : State :=
  let s := s.withMi { s.mi with
    initLen := v.setWidth 7
    initMode := bitPair s.mi.initMode v 7 8
    ebusTest := bitPair s.mi.ebusTest v 9 10 }
  let s := if v.getLsbD 11 then clearCause .dp s else s
  s.withMi { s.mi with rdramReg := bitPair s.mi.rdramReg v 12 13 }

/-- MI_MODE write (R131). -/
def execSwMiMode (v : Word) (s : State) : Host.Outcome State Fault Refusal :=
  done (miModeWrite v s)

/-- MI_MODE read (R132). -/
def execLwMiMode (s : State) : Host.Outcome State Fault Refusal :=
  returningWord (miModeWord s.mi) s

/-- MI_VERSION write: no effect (R138). -/
def execSwMiVersion (_v : Word) (s : State) : Host.Outcome State Fault Refusal :=
  done s

/-- MI_VERSION read: `P_MI_VERSION` (R133). -/
def execLwMiVersion (s : State) : Host.Outcome State Fault Refusal :=
  returningWord s.cfg.miVersion s

/-- MI_INTR write: no effect (R138). -/
def execSwMiIntr (_v : Word) (s : State) : Host.Outcome State Fault Refusal :=
  done s

/-- MI_INTR read: the cause word (R134). -/
def execLwMiIntr (s : State) : Host.Outcome State Fault Refusal :=
  returningWord (s.mi.cause.setWidth 32) s

/-- MI_MASK write under WHOLESALE: `mi_mask <- v[5:0]` (R135). -/
def execSwMiMaskWholesale (v : Word) (s : State) : Host.Outcome State Fault Refusal :=
  done (s.withMi { s.mi with mask := v.setWidth 6 })

/-- MI_MASK write under BITPAIR (R136). -/
def execSwMiMaskBitpair (v : Word) (s : State) : Host.Outcome State Fault Refusal :=
  done (s.withMi { s.mi with mask := maskPairs s.mi.mask v })

/-- MI_MASK read (R137). -/
def execLwMiMask (s : State) : Host.Outcome State Fault Refusal :=
  returningWord (s.mi.mask.setWidth 32) s

/-- A reserved offset of MI read (R161). -/
def execLwMiReserved (_off : BitVec 20) (s : State) : Host.Outcome State Fault Refusal :=
  readReserved s

/-- A reserved offset of MI written: no effect (R161). -/
def execSwMiReserved (_off : BitVec 20) (_v : Word) (s : State) : Host.Outcome State Fault Refusal :=
  done s

end Sys2Proof.Machine
end

