-- ==== Sys2Proof/Machine/Serial.lean ====
section
/-! DEFINITION. The Serial DMA Engine: its registers, the transaction, the channel scan, the devices, its part of a
time advance (spec/43_serial_dma.md, spec/30_encoding.md R118), and the CPU's access to PIF RAM. -/

namespace Sys2Proof.Machine

open Sys2Proof

/-- An answer cut to rx bytes or padded with 0x00 to rx bytes (R216). -/
def fitAnswer (rx : Nat) (bs : List Byte) : List Byte := bs.take rx ++ List.replicate (rx - bs.length) 0#8

/-- The four bytes of a controller read: buttons high, buttons low, stick x, stick y (R216). -/
def padBytes (v : Word) : List Byte := (Data.w v).bytes

/-- R216's default device. The command code is the first command byte (R118); an empty command has none and gets no
answer. DEDUCED (log entry 8): bytes after the code are not looked at. Unsafe only for a claim about longer commands. -/
def standardController (pad : Word) (ch : Nat) (cmd : List Byte) (rx : Nat) : Option (List Byte) :=
  if ch = 0 then
    match cmd with
    | [] => none
    | code :: _ =>
      if code = 0x00#8 ∨ code = 0xFF#8 then some (fitAnswer rx [0x05#8, 0x00#8, 0x02#8])
      else if code = 0x01#8 then some (fitAnswer rx (padBytes pad))
      else none
  else none

/-- `P_JOYBUS_DEVICE(ch, cmd, rx)` at a draw number: `none` is NoDevice, `some bs` a response of rx bytes (R215). -/
def joybusDevice (c : Config) (draw ch : Nat) (cmd : List Byte) (rx : Nat) : Option (List Byte) :=
  match c.joybus with
  | .anyDevice => (Config.joybusAnswer draw ch cmd rx).map (fitAnswer rx)
  | .standardController pad => standardController (pad.getD (Config.hostPad draw)) ch cmd rx

/-- What the channel scan carries: PIF RAM, the channel number, the cost so far, the next draw number. -/
structure ChannelScan where
  pif   : Vector Byte 64
  ch    : Nat
  total : Nat
  draws : Nat
deriving DecidableEq, Repr

/-- `ProcessChannel(ch, i, tx, rx)` (R211): the device's answer goes into the frame, and the cost is added. -/
def processChannel (c : Config) (i tx rx : Nat) (z : ChannelScan) : ChannelScan :=
  let pif :=
    match joybusDevice c z.draws z.ch (pifBytes z.pif (i + 2) tx) rx with
    | none => pifWrite z.pif (i + 1) (pifRead z.pif (i + 1) ||| 0x80#8)
    | some bs => pifWriteBytes z.pif (i + 2 + tx) bs
  { z with pif := pif, total := z.total + c.channelCost z.ch, draws := z.draws + 1 }

/-- The scan of R210 from byte i. Every round but the last moves i on, so 63 rounds are enough from byte 0. -/
def processRam (c : Config) : Nat → Nat → ChannelScan → ChannelScan
  | 0, _, z => z
  | fuel + 1, i, z =>
    if i < 63 ∧ z.ch < 6 then
      let b := pifRead z.pif i
      if b = 0xFE#8 then z
      else if b = 0xFF#8 ∨ b = 0xFD#8 then processRam c fuel (i + 1) z
      else if b = 0x00#8 then processRam c fuel (i + 1) { z with ch := z.ch + 1 }
      else
        let tx := (b &&& 0x3F#8).toNat
        let rx := (pifRead z.pif (i + 1) &&& 0x3F#8).toNat
        if 63 < i + 2 + tx + rx then z
        else
          let z := processChannel c i tx rx z
          processRam c fuel (i + 2 + tx + rx) { z with ch := z.ch + 1 }
    else z

/-- `ProcessRam()` on the state's PIF RAM (R210). -/
def scanPif (s : State) : ChannelScan := processRam s.cfg 63 0 ⟨s.si.pifRam, 0, 0, s.draws⟩

/-- `SerialRead()`: the channels are processed, then the 64 bytes go to the memory image (R208); the cost. -/
def serialRead (s : State) : State × Nat :=
  let z := scanPif s
  (((s.withSi { s.si with pifRam := z.pif, channel := z.ch }).withDraws z.draws).withMem
    (dmaWriteBytes s.cfg.rdramBytes s.mem s.si.dramAddr.toNat z.pif.toList), z.total)

/-- `SerialWrite()`: 64 bytes of the memory image go to PIF RAM, and no channel is processed (R209); the cost. -/
def serialWrite (s : State) : State × Nat :=
  (s.withSi { s.si with
    pifRam := pifWriteBytes s.si.pifRam 0 (dmaReadBytes s.cfg.rdramBytes s.mem s.si.dramAddr.toNat 64)
    channel := 0 }, 0)

/-- The data movement of a transaction, by direction (R207). -/
def serialMove : Dir → State → State × Nat
  | .read, s => serialRead s
  | .write, s => serialWrite s

/-- `SerialHandleDma(dir, v)`: while busy no state changes at all (R207). The data moves at the
request (R84; log entry 10, UNVERIFIED on the platform). -/
def serialHandleDma (dir : Dir) (v : Word) (s : State) : State :=
  if s.si.dmaBusy then s
  else
    let r := serialMove dir (s.withSi { s.si with pifAddr := v, dmaBusy := true, dir := some dir, elapsed := 0 })
    r.1.withSi { r.1.si with cost := s.cfg.siTransferCost + r.2 }

/-- `Complete()` (R213). -/
def serialComplete (s : State) : State :=
  setCause .si (s.withSi { s.si with dmaBusy := false, dir := none, elapsed := 0, cost := 0, intr := true })

/-- `SerialTick(t)` (R212). -/
def serialTick (t : Nat) (s : State) : State :=
  if s.si.dmaBusy then
    let s := s.withSi { s.si with elapsed := s.si.elapsed + t }
    if s.si.cost ≤ s.si.elapsed then serialComplete s else s
  else s

/-- SI_DRAM_ADDR write, also while busy (R200). -/
def execSwSiDramAddr (v : Word) (s : State) : Host.Outcome State Fault Refusal :=
  done (s.withSi { s.si with dramAddr := pointerField v })

/-- SI_DRAM_ADDR read (R201). -/
def execLwSiDramAddr (s : State) : Host.Outcome State Fault Refusal :=
  returningWord (s.si.dramAddr.setWidth 32) s

/-- SI_PIF_AD_RD64B write: requests a READ transaction (R202). -/
def execSwSiPifAdRd64b (v : Word) (s : State) : Host.Outcome State Fault Refusal :=
  done (serialHandleDma .read v s)

/-- SI_PIF_AD_RD64B read (R204). -/
def execLwSiPifAdRd64b (s : State) : Host.Outcome State Fault Refusal :=
  returningWord s.si.pifAddr s

/-- SI_PIF_AD_WR64B write: requests a WRITE transaction (R203). -/
def execSwSiPifAdWr64b (v : Word) (s : State) : Host.Outcome State Fault Refusal :=
  done (serialHandleDma .write v s)

/-- SI_PIF_AD_WR64B read (R204). -/
def execLwSiPifAdWr64b (s : State) : Host.Outcome State Fault Refusal :=
  returningWord s.si.pifAddr s

/-- SI_STATUS write: clears `si_intr` and the SI cause, whatever the word (R206). -/
def execSwSiStatus (_v : Word) (s : State) : Host.Outcome State Fault Refusal :=
  done (clearCause .si (s.withSi { s.si with intr := false }))

/-- SI_STATUS read (R205). -/
def execLwSiStatus (s : State) : Host.Outcome State Fault Refusal :=
  returningWord (siStatusWord s.si) s

/-- A reserved offset of SI read (R161). -/
def execLwSiReserved (_off : BitVec 20) (s : State) : Host.Outcome State Fault Refusal :=
  readReserved s

/-- A reserved offset of SI written: no effect (R161). -/
def execSwSiReserved (_off : BitVec 20) (_v : Word) (s : State) : Host.Outcome State Fault Refusal :=
  done s

/-- A 4-byte read of PIF RAM, word j (R159). -/
def execLwPifRam (j : BitVec 4) (s : State) : Host.Outcome State Fault Refusal :=
  returningWord (pifLoad s.si.pifRam j) s

/-- A 4-byte write of PIF RAM, word j, also while busy (R160). -/
def execSwPifRam (j : BitVec 4) (v : Word) (s : State) : Host.Outcome State Fault Refusal :=
  done (s.withSi { s.si with pifRam := pifStore s.si.pifRam j v })

end Sys2Proof.Machine
end

