-- ==== Sys2Proof/Machine/Ports.lean ====
section
/-! DEFINITION. The ports of the stepping loop, the session and the external owners: QUERY_IRQ, ADVANCE, CONSTRUCT,
RAISE_SOURCE, CLEAR_SOURCE and the unknown port word (spec/30_encoding.md R113). -/

namespace Sys2Proof.Machine

open Sys2Proof

/-- `ADVANCE(t)`: audio, then serial (R302). -/
def advance (t : Nat) (s : State) : State := serialTick t (audioHandleDma t s)

/-- The block as CONSTRUCT makes it (R340): every element of R341 at its value there, under the session's parameters;
the model's own fields but the answer go on. -/
def constructed (s : State) : State :=
  { State.fresh s.cfg with allocOk := s.allocOk, events := s.events, draws := s.draws, pending := s.pending }

/-- QUERY_IRQ: returns `irq_pending` and writes nothing (R143). -/
def execPortQueryIrq (s : State) : Host.Outcome State Fault Refusal :=
  returning (.flag (irqPending s)) s

/-- ADVANCE(t) (R302). -/
def execPortAdvance (t : Nat) (s : State) : Host.Outcome State Fault Refusal :=
  done (advance t s)

/-- CONSTRUCT: the reset state, or construction failure; refused where the block already exists (R314, R340). -/
def execPortConstruct (s : State) : Host.Outcome State Fault Refusal :=
  match s.phase with
  | .live => refuse (.unknownPortOp 0x03000000#32) s
  | .absent => if s.allocOk then done (constructed s) else .fault .constructionFailure

/-- RAISE_SOURCE(k), k of SP, VI, PI (R141). -/
def execPortRaiseSource (k : ExtSource) (s : State) : Host.Outcome State Fault Refusal :=
  done (setCause (extSource k) s)

/-- CLEAR_SOURCE(k), k of SP, VI, PI (R142). -/
def execPortClearSource (k : ExtSource) (s : State) : Host.Outcome State Fault Refusal :=
  done (clearCause (extSource k) s)

/-- `refuse(UnknownPortOp(word))` (R115, R312). -/
def execRefuseUnknownPortOp (word : Word) (s : State) : Host.Outcome State Fault Refusal :=
  refuse (.unknownPortOp word) s

end Sys2Proof.Machine
end

