-- ==== Sys2Proof/Machine/Dispatch.lean ====
section
/-! DEFINITION. One arm for each constructor of Instr: a direct call of its meaning. -/

namespace Sys2Proof.Machine

open Sys2Proof

def exec (i : Instr) (s : State) : Host.Outcome State Fault Refusal :=
  match i with
  -- Interrupt Register (spec/40_interrupt.md; MI_MASK has one row for each value of P_MI_MASK_WRITE)
  | .swMiMode v => Sys2Proof.Machine.execSwMiMode v s
  | .lwMiMode => Sys2Proof.Machine.execLwMiMode s
  | .swMiVersion v => Sys2Proof.Machine.execSwMiVersion v s
  | .lwMiVersion => Sys2Proof.Machine.execLwMiVersion s
  | .swMiIntr v => Sys2Proof.Machine.execSwMiIntr v s
  | .lwMiIntr => Sys2Proof.Machine.execLwMiIntr s
  | .swMiMaskWholesale v => Sys2Proof.Machine.execSwMiMaskWholesale v s
  | .swMiMaskBitpair v => Sys2Proof.Machine.execSwMiMaskBitpair v s
  | .lwMiMask => Sys2Proof.Machine.execLwMiMask s
  -- Audio DMA Engine (spec/42_audio_dma.md)
  | .swAiDramAddr v => Sys2Proof.Machine.execSwAiDramAddr v s
  | .lwAiDramAddr => Sys2Proof.Machine.execLwAiDramAddr s
  | .swAiLen v => Sys2Proof.Machine.execSwAiLen v s
  | .lwAiLen => Sys2Proof.Machine.execLwAiLen s
  | .swAiControl v => Sys2Proof.Machine.execSwAiControl v s
  | .lwAiControl => Sys2Proof.Machine.execLwAiControl s
  | .swAiStatus v => Sys2Proof.Machine.execSwAiStatus v s
  | .lwAiStatus => Sys2Proof.Machine.execLwAiStatus s
  | .swAiDacrate v => Sys2Proof.Machine.execSwAiDacrate v s
  | .lwAiDacrate => Sys2Proof.Machine.execLwAiDacrate s
  | .swAiBitrate v => Sys2Proof.Machine.execSwAiBitrate v s
  | .lwAiBitrate => Sys2Proof.Machine.execLwAiBitrate s
  -- Serial DMA Engine (spec/43_serial_dma.md)
  | .swSiDramAddr v => Sys2Proof.Machine.execSwSiDramAddr v s
  | .lwSiDramAddr => Sys2Proof.Machine.execLwSiDramAddr s
  | .swSiPifAdRd64b v => Sys2Proof.Machine.execSwSiPifAdRd64b v s
  | .lwSiPifAdRd64b => Sys2Proof.Machine.execLwSiPifAdRd64b s
  | .swSiPifAdWr64b v => Sys2Proof.Machine.execSwSiPifAdWr64b v s
  | .lwSiPifAdWr64b => Sys2Proof.Machine.execLwSiPifAdWr64b s
  | .swSiStatus v => Sys2Proof.Machine.execSwSiStatus v s
  | .lwSiStatus => Sys2Proof.Machine.execLwSiStatus s
  -- Display Command Interface (spec/44_display_cmd.md)
  | .swDpcStart v => Sys2Proof.Machine.execSwDpcStart v s
  | .lwDpcStart => Sys2Proof.Machine.execLwDpcStart s
  | .swDpcEnd v => Sys2Proof.Machine.execSwDpcEnd v s
  | .lwDpcEnd => Sys2Proof.Machine.execLwDpcEnd s
  | .swDpcCurrent v => Sys2Proof.Machine.execSwDpcCurrent v s
  | .lwDpcCurrent => Sys2Proof.Machine.execLwDpcCurrent s
  | .swDpcStatus v => Sys2Proof.Machine.execSwDpcStatus v s
  | .lwDpcStatus => Sys2Proof.Machine.execLwDpcStatus s
  | .swDpcClock v => Sys2Proof.Machine.execSwDpcClock v s
  | .lwDpcClock => Sys2Proof.Machine.execLwDpcClock s
  | .swDpcBufbusy v => Sys2Proof.Machine.execSwDpcBufbusy v s
  | .lwDpcBufbusy => Sys2Proof.Machine.execLwDpcBufbusy s
  | .swDpcPipebusy v => Sys2Proof.Machine.execSwDpcPipebusy v s
  | .lwDpcPipebusy => Sys2Proof.Machine.execLwDpcPipebusy s
  | .swDpcTmem v => Sys2Proof.Machine.execSwDpcTmem v s
  | .lwDpcTmem => Sys2Proof.Machine.execLwDpcTmem s
  -- Calibration Register Block (spec/45_calibration.md)
  | .swRiMode v => Sys2Proof.Machine.execSwRiMode v s
  | .lwRiMode => Sys2Proof.Machine.execLwRiMode s
  | .swRiConfig v => Sys2Proof.Machine.execSwRiConfig v s
  | .lwRiConfig => Sys2Proof.Machine.execLwRiConfig s
  | .swRiCurrentLoad v => Sys2Proof.Machine.execSwRiCurrentLoad v s
  | .lwRiCurrentLoad => Sys2Proof.Machine.execLwRiCurrentLoad s
  | .swRiSelect v => Sys2Proof.Machine.execSwRiSelect v s
  | .lwRiSelect => Sys2Proof.Machine.execLwRiSelect s
  | .swRiRefresh v => Sys2Proof.Machine.execSwRiRefresh v s
  | .lwRiRefresh => Sys2Proof.Machine.execLwRiRefresh s
  | .swRiLatency v => Sys2Proof.Machine.execSwRiLatency v s
  | .lwRiLatency => Sys2Proof.Machine.execLwRiLatency s
  | .swRiRerror v => Sys2Proof.Machine.execSwRiRerror v s
  | .lwRiRerror => Sys2Proof.Machine.execLwRiRerror s
  | .swRiWerror v => Sys2Proof.Machine.execSwRiWerror v s
  | .lwRiWerror => Sys2Proof.Machine.execLwRiWerror s
  -- PIF RAM, word j (R159, R160)
  | .lwPifRam j => Sys2Proof.Machine.execLwPifRam j s
  | .swPifRam j v => Sys2Proof.Machine.execSwPifRam j v s
  -- reserved offsets of the register blocks (R161)
  | .lwMiReserved off => Sys2Proof.Machine.execLwMiReserved off s
  | .swMiReserved off v => Sys2Proof.Machine.execSwMiReserved off v s
  | .lwAiReserved off => Sys2Proof.Machine.execLwAiReserved off s
  | .swAiReserved off v => Sys2Proof.Machine.execSwAiReserved off v s
  | .lwSiReserved off => Sys2Proof.Machine.execLwSiReserved off s
  | .swSiReserved off v => Sys2Proof.Machine.execSwSiReserved off v s
  | .lwDpcReserved off => Sys2Proof.Machine.execLwDpcReserved off s
  | .swDpcReserved off v => Sys2Proof.Machine.execSwDpcReserved off v s
  | .lwRiReserved off => Sys2Proof.Machine.execLwRiReserved off s
  | .swRiReserved off v => Sys2Proof.Machine.execSwRiReserved off v s
  -- the memory image (R152, R153)
  | .lbMem a => Sys2Proof.Machine.execLbMem a s
  | .sbMem a v => Sys2Proof.Machine.execSbMem a v s
  | .lhMem a => Sys2Proof.Machine.execLhMem a s
  | .shMem a v => Sys2Proof.Machine.execShMem a v s
  | .lwMem a => Sys2Proof.Machine.execLwMem a s
  | .swMem a v => Sys2Proof.Machine.execSwMem a v s
  | .ldMem a => Sys2Proof.Machine.execLdMem a s
  | .sdMem a v => Sys2Proof.Machine.execSdMem a v s
  -- external and unmapped ranges (R154 .. R156)
  | .extR a n => Sys2Proof.Machine.execExtR a n s
  | .extW a d => Sys2Proof.Machine.execExtW a d s
  | .unmappedR a n => Sys2Proof.Machine.execUnmappedR a n s
  | .unmappedW a d => Sys2Proof.Machine.execUnmappedW a d s
  -- refused bus operations (R157, R158)
  | .refuseUnsupportedWidth op => Sys2Proof.Machine.execRefuseUnsupportedWidth op s
  | .refuseMisalignedBusAccess op => Sys2Proof.Machine.execRefuseMisalignedBusAccess op s
  -- port operations (R113)
  | .portQueryIrq => Sys2Proof.Machine.execPortQueryIrq s
  | .portAdvance t => Sys2Proof.Machine.execPortAdvance t s
  | .portConstruct => Sys2Proof.Machine.execPortConstruct s
  | .portRaiseSource k => Sys2Proof.Machine.execPortRaiseSource k s
  | .portClearSource k => Sys2Proof.Machine.execPortClearSource k s
  | .portQueryCmdReady => Sys2Proof.Machine.execPortQueryCmdReady s
  | .portQueryFrameFinished => Sys2Proof.Machine.execPortQueryFrameFinished s
  | .portExportWords => Sys2Proof.Machine.execPortExportWords s
  | .portExportRowLengths => Sys2Proof.Machine.execPortExportRowLengths s
  | .portClearCommands => Sys2Proof.Machine.execPortClearCommands s
  | .portClearFrameFinished => Sys2Proof.Machine.execPortClearFrameFinished s
  -- refused port words (R115)
  | .refuseUnknownPortOp word => Sys2Proof.Machine.execRefuseUnknownPortOp word s

end Sys2Proof.Machine
end

