-- ==== Sys2Proof/Machine/Fetch.lean ====
section
/-! DEFINITION. Which of the issued operations is performed next: the oldest one that is not waiting
(spec/20_memory.md R83, spec/60_exceptions.md R313); and which operations an agent can issue at all
(spec/46_stepping_time.md R300, R306, spec/60_exceptions.md R322). -/

namespace Sys2Proof.Machine

open Sys2Proof

/-- Does the operation have no step in this state? The block's one hold: a DPC_END write while `dpc_frame_finished`
(R313); every other operation is always enabled. -/
def held (s : State) : Instr → Bool
  | .swDpcEnd _ => s.dpc.frameFinished
  | _ => false

/-- The oldest issued operation that can be performed, and the others in their order. Once an operation of the stepping
loop is held, the rest of its CPU step waits with it (R313), while the other agents go on. DEDUCED (log entry 11). -/
def pick (s : State) : Bool → List Issued → Option (Issued × List Issued)
  | _, [] => none
  | loopWaits, e :: rest =>
    if (loopWaits && decide (e.agent = .steppingLoop)) || held s (decode s.cfg e.request) then
      match pick s (loopWaits || decide (e.agent = .steppingLoop)) rest with
      | none => none
      | some (x, others) => some (x, e :: others)
    else some (e, rest)

/-- An operation performed on a block that exists; before CONSTRUCT there is none (R314, R340). -/
def perform (i : Instr) (s : State) : Host.Outcome State Fault Refusal :=
  match s.phase, i with
  | .live, i => exec i s
  | .absent, .portConstruct => exec .portConstruct s
  | .absent, _ => .fault .noBlock

/-- The port operations of the stepping loop: a step's ADVANCE and its QUERY_IRQ (R300). -/
def isLoopPort : Instr → Bool
  | .portAdvance _ | .portQueryIrq => true
  | _ => false

/-- The port operations of the external components: RAISE_SOURCE and CLEAR_SOURCE (R322). DESIGN CHOICE (log entry 17):
a port word that R115 refuses is admitted too; nothing but the refusal record shows it. Safe. -/
def isExternalPort : Instr → Bool
  | .portRaiseSource _ | .portClearSource _ | .refuseUnknownPortOp _ => true
  | _ => false

/-- The host's moves of R306 that are port operations; the two of the external components are among them. -/
def isHostPort : Instr → Bool
  | .portConstruct | .portQueryCmdReady | .portQueryFrameFinished | .portExportWords | .portExportRowLengths
  | .portClearCommands | .portClearFrameFinished => true
  | i => isExternalPort i

/-- Is the request a move of the agent? Bus operations are the CPU's alone (R322); of the port operations each agent has
its own (R300, R306, R322). -/
def mayIssue : Agent → Request → Bool
  | .steppingLoop, .bus _ => true
  | .steppingLoop, .port word t => isLoopPort (decodePort word t)
  | .host, .bus _ => false
  | .host, .port word t => isHostPort (decodePort word t)
  | .external, .bus _ => false
  | .external, .port word t => isExternalPort (decodePort word t)

/-- An agent that can issue the request: the stepping loop where it is its move, else the host. -/
def issuer (r : Request) : Agent := if mayIssue .steppingLoop r then .steppingLoop else .host

/-- An agent issues an operation: it stands after those issued before it (R83). What is no move of the agent "does not
exist" (R306): the state stays as it is. -/
def State.issue (s : State) (e : Issued) : State :=
  if mayIssue e.agent e.request then s.withPending (s.pending ++ [e]) else s

/-- The next operation performed. DESIGN CHOICE (log entry 4): with nothing issued the block stays as it is (R308);
where every issued operation waits the machine is stuck (R313). Safe. -/
def stepIssued (s : State) : Host.Outcome State Fault Refusal :=
  match s.pending with
  | [] => .next s
  | _ :: _ =>
    match pick s false s.pending with
    | none => .fault .heldDpcEnd
    | some (e, others) => perform (decode s.cfg e.request) (s.withPending others)

end Sys2Proof.Machine
end

