-- ==== Sys2Proof/Machine/Step.lean ====
section
/-! DEFINITION. One step of the machine, and an operation put where the step takes its next one. -/

namespace Sys2Proof.Machine

open Sys2Proof

/-- One step: one atomic operation of the block (spec/20_memory.md R82, spec/46_stepping_time.md R305). -/
def step (s : State) : Host.Outcome State Fault Refusal := stepIssued s

/-- The operation of an opcode-table word, issued ahead of every other by an agent whose move it is (log entries 4, 7). -/
def State.withFetchWord (s : State) (_nbits w : Nat) : State :=
  s.withPending (⟨issuer (tableRequest (BitVec.ofNat 32 w)), tableRequest (BitVec.ofNat 32 w)⟩ :: s.pending)

end Sys2Proof.Machine
end

