-- ==== Sys2Proof/Machine/Loop.lean ====
section
/-! DEFINITION. The block's side of the stepping loop: a CPU step, a frame run and where it ends
(spec/46_stepping_time.md R300, R301, R308), and the host's boot order (spec/70_reset_and_hazards.md R345). The CPU is
outside the block, so a program is the list of what its steps do. -/

namespace Sys2Proof.Machine

open Sys2Proof

/-- One step of the CPU: its bus operations in program order and the time units it took (R300). -/
structure CpuStep where
  ops : List BusOp
  t   : Nat
deriving DecidableEq, Repr

/-- What the stepping loop issues for a CPU step: its bus operations, then ADVANCE(t), then one QUERY_IRQ (R300). -/
def CpuStep.issued (c : CpuStep) : List Issued :=
  c.ops.map (fun op => ⟨.steppingLoop, .bus op⟩)
    ++ [⟨.steppingLoop, .port (portWord 0x02#8 0#8) c.t⟩, ⟨.steppingLoop, .port (portWord 0x01#8 0#8) 0⟩]

/-- k steps of the machine, stopping where one stops. -/
def stepN : Nat → State → Host.Outcome State Fault Refusal
  | 0, s => .next s
  | k + 1, s =>
    match step s with
    | .next s' => stepN k s'
    | .fault r => .fault r
    | .refused r => .refused r

/-- A CPU step with nothing else pending: its operations are issued and performed. -/
def runCpuStep (c : CpuStep) (s : State) : Host.Outcome State Fault Refusal :=
  stepN c.issued.length (s.withPending (s.pending ++ c.issued))

/-- At most k operations, ending in the FIRST state at which the frame-finished flag is true (R308); what was issued and
not performed by then is still pending. -/
def runToFrameEnd : Nat → State → Host.Outcome State Fault Refusal
  | 0, s => .next s
  | k + 1, s =>
    if s.dpc.frameFinished then .next s
    else
      match step s with
      | .next s' => runToFrameEnd k s'
      | .fault r => .fault r
      | .refused r => .refused r

/-- A frame run that ends where R308 and R301's corner case say: right after the operation that sets the flag, so that no
DPC_END write is ever held inside it. The rest of that CPU step is pending in the state it ends in. -/
def runFrameToEnd : List CpuStep → State → Host.Outcome State Fault Refusal
  | [], s => .next s
  | c :: cs, s =>
    if s.dpc.frameFinished then .next s
    else
      match runToFrameEnd (s.pending ++ c.issued).length (s.withPending (s.pending ++ c.issued)) with
      | .next s' => runFrameToEnd cs s'
      | .fault r => .fault r
      | .refused r => .refused r

/-- `RunFrame()` as the loop of R301 is written: CPU steps until the frame-finished flag is true, or until the program
given ends (log entry 16). DESIGN CHOICE (log entry 18): where R301's loop and vector TV-2 differ from R308 this one
follows the loop: the flag is tested between CPU steps, so the step that sets it still has its later bus operations, its
ADVANCE and its QUERY_IRQ, and a second DPC_END write in it is held and stops the run with heldDpcEnd. `runFrameToEnd` is
R308's. -/
def runFrame : List CpuStep → State → Host.Outcome State Fault Refusal
  | [], s => .next s
  | c :: cs, s =>
    if s.dpc.frameFinished then .next s
    else
      match runCpuStep c s with
      | .next s' => runFrame cs s'
      | .fault r => .fault r
      | .refused r => .refused r

/-- R345 item 2: the boot state that the host places in memory and PIF RAM after CONSTRUCT "through its own channels, which
are outside the block". DESIGN CHOICE (log entry 19): R306's table has no such move, so it is no operation; it is where a
session starts. Safe. -/
def State.boot (s : State) (m : Memory) (pif : Vector Byte 64) : State :=
  (s.withMem m).withSi { s.si with pifRam := pif }

end Sys2Proof.Machine
end

