-- ==== Sys2Proof/Machine/Script.lean ====
section
/-! DEFINITION. The script notation of spec/30_encoding.md: the mnemonics of R119 and the pseudo-operations of R120, as
the requests they stand for under the default bases. -/

namespace Sys2Proof.Machine.Script

open Sys2Proof

/-- `LB a`, `LH a`, `LW a`, `LD a` (R119). -/
def lb (a : Word) : Request := .bus (.read a .w1)
def lh (a : Word) : Request := .bus (.read a .w2)
def lw (a : Word) : Request := .bus (.read a .w4)
def ld (a : Word) : Request := .bus (.read a .w8)

/-- `SB a, v`, `SH a, v`, `SW a, v`, `SD a, v` (R119). -/
def sb (a : Word) (v : BitVec 8) : Request := .bus (.write a (.b v))
def sh (a : Word) (v : BitVec 16) : Request := .bus (.write a (.h v))
def sw (a : Word) (v : BitVec 32) : Request := .bus (.write a (.w v))
def sd (a : Word) (v : BitVec 64) : Request := .bus (.write a (.d v))

/-- `ADV t` (R119). -/
def adv (t : Nat) : Request := .port 0x02000000#32 t

/-- `PORT NAME` of a port word with no operand t (R119). -/
def port (word : Word) : Request := .port word 0

/-- `SETMASK m` (R120). -/
def setMask (m : Word) : List Request := [sw 0x0430000C#32 m]

/-- `ACKDP` (R120). -/
def ackDp : List Request := [sw 0x04300000#32 0x00000800#32]

/-- `AIPUSH a, L` (R120). -/
def aiPush (a len : Word) : List Request := [sw 0x04500000#32 a, sw 0x04500004#32 len]

/-- `ACKAI` (R120). -/
def ackAi : List Request := [sw 0x0450000C#32 0#32]

/-- `SIREAD d` (R120). -/
def siRead (d : Word) : List Request := [sw 0x04800000#32 d, sw 0x04800004#32 0x1FC007C0#32]

/-- `SIWRITE d` (R120). -/
def siWrite (d : Word) : List Request := [sw 0x04800000#32 d, sw 0x04800010#32 0x1FC007C0#32]

/-- `ACKSI` (R120). -/
def ackSi : List Request := [sw 0x04800018#32 0#32]

/-- `DPLIST s, e` (R120). -/
def dpList (s e : Word) : List Request := [sw 0x04100000#32 s, sw 0x04100004#32 e]

/-- `DRAIN`, the consumer's duty of spec/46_stepping_time.md R306 in its order (R120). -/
def drain : List Request :=
  [port 0x22000000#32, port 0x23000000#32, port 0x24000000#32, port 0x25000000#32]

end Sys2Proof.Machine.Script
end

