-- ==== Sys2Proof/Safety.lean ====
section
/-! DEFINITION. The terms in which claims are stated: the values the parameters admit (spec/00_scope.md R6), the
invariants of spec/10_state.md R51 and the held fields of R24 .. R41, the launch premises of
spec/46_stepping_time.md R309, the end of a frame (R308) and fairness (R304), and the states that operations can lead to. -/

namespace Sys2Proof.Machine

open Sys2Proof

/-- The parameters are ones that R6 admits: positive clocks, command lengths 1 .. 22, an image whose cells are in
canonical form and inside it, and the bases of R71. -/
abbrev ConfigOk (c : Config) : Prop :=
  0 < c.viClock ∧ 0 < c.cpuClock ∧ (∀ n ∈ c.rdpCmdLen, 1 ≤ n ∧ n ≤ 22) ∧ c.memInit.wf = true ∧
    c.memInit.within c.rdramBytes = true ∧ c.bases = Bases.default

/-- The Audio DMA Engine: R51 items 1 and 2, the alignments of R24 and R25, the frequency of R29, and the countdown of
R184 (a head slot that has run its duration has popped). -/
abbrev AudioInv (c : Config) (a : AudioEngine) : Prop :=
  a.fifo.length ≤ 2 ∧ a.ready = decide (a.fifo.length < 2) ∧ (a.fifo = [] → a.elapsed = 0) ∧
    a.dramAddr.toNat % 8 = 0 ∧ a.len.toNat % 8 = 0 ∧ a.freq = c.dacFrequency a.dacrate ∧
    (∀ slot ∈ a.fifo.take 1, a.elapsed = 0 ∨ a.elapsed < slot.dur)

/-- The Serial DMA Engine: R51 item 3, the fields that hold 0 (R35), the range of the channel number (R36), the
alignment of R33, and the countdown of R212. -/
abbrev SerialInv (c : Config) (e : SerialEngine) : Prop :=
  e.dmaBusy = e.dir.isSome ∧ (e.dmaBusy = false → e.elapsed = 0 ∧ e.cost = 0) ∧ e.ioBusy = false ∧
    e.readPending = false ∧ e.dmaError = false ∧ e.pchState = 0#4 ∧ e.dmaState = 0#4 ∧ e.channel ≤ 6 ∧
    e.dramAddr.toNat % 8 = 0 ∧ (e.dmaBusy = true → c.siTransferCost ≤ e.cost ∧ (e.elapsed = 0 ∨ e.elapsed < e.cost))

/-- The Display Command Interface: R51 items 4 and 5, the alignments of R39, the even rows of R241, and the bound of the
skip count (R243, R258). -/
abbrev DisplayInv (d : DisplayInterface) : Prop :=
  d.cmdReady = decide (d.rows ≠ []) ∧ (∀ r ∈ d.rows, r ≠ [] ∧ r.length % 2 = 0) ∧ d.start.toNat % 8 = 0 ∧
    d.finish.toNat % 8 = 0 ∧ d.current.toNat % 8 = 0 ∧ d.skip ≤ 43

/-- The memory image: its canonical form, and no byte outside it (R47). -/
abbrev MemoryInv (c : Config) (m : Memory) : Prop := m.wf = true ∧ m.within c.rdramBytes = true

/-- Every operation issued is a move of the agent that issued it (R306, R322). -/
abbrev MovesInv (es : List Issued) : Prop := ∀ e ∈ es, mayIssue e.agent e.request = true

/-- The invariant of the machine. -/
abbrev Inv (s : State) : Prop :=
  ConfigOk s.cfg ∧ AudioInv s.cfg s.ai ∧ SerialInv s.cfg s.si ∧ DisplayInv s.dpc ∧ MemoryInv s.cfg s.mem ∧
    MovesInv s.pending

/-- `Fresh` (R309): the reset state apart from the contents of `mem` and `pif_ram`. -/
abbrev Fresh (s : State) : Prop :=
  s.mi = (State.fresh s.cfg).mi ∧ s.ai = (State.fresh s.cfg).ai ∧
    s.si = { (State.fresh s.cfg).si with pifRam := s.si.pifRam } ∧ s.dpc = (State.fresh s.cfg).dpc ∧
    s.ri = (State.fresh s.cfg).ri ∧ s.refused = none ∧ s.phase = .live

/-- `NoRefusal` (R309, R312). -/
abbrev NoRefusal (s : State) : Prop := s.refused = none

/-- `Quiescent` (R309). -/
abbrev Quiescent (s : State) : Prop :=
  s.ai.fifo = [] ∧ s.si.dmaBusy = false ∧ s.dpc.rows = [] ∧ s.dpc.frameFinished = false

/-- A frame run from s ends in t (R308): t is the first state, operation by operation, at which the frame-finished flag is
true. -/
def FrameEnded (s t : State) : Prop :=
  ∃ n, stepN n s = .next t ∧ t.dpc.frameFinished = true ∧
    ∀ m, m < n → ∃ u, stepN m s = .next u ∧ u.dpc.frameFinished = false

/-- Work that an ended frame run carries into the next one (R308): a claim about the end of a frame run says whether it
allows it. -/
abbrev PendingDma (s : State) : Prop := s.ai.fifo ≠ [] ∨ s.si.dmaBusy = true

/-- The host's duty of R306 when it steps the CPU: not while the frame-finished flag is true. -/
abbrev MayStepCpu (s : State) : Prop := s.dpc.frameFinished = false

/-- The consumer duty of R306 on the moves the host makes at a frame's end: both exports before CLEAR_COMMANDS, and
CLEAR_FRAME_FINISHED after it, once. `Script.drain` keeps it. -/
abbrev KeepsDrainDuty (moves : List Request) : Prop :=
  moves.idxOf (Script.port 0x22000000#32) < moves.idxOf (Script.port 0x24000000#32) ∧
    moves.idxOf (Script.port 0x23000000#32) < moves.idxOf (Script.port 0x24000000#32) ∧
    moves.idxOf (Script.port 0x24000000#32) < moves.idxOf (Script.port 0x25000000#32) ∧
    moves.count (Script.port 0x25000000#32) = 1

/-- `Fair` (R304): the steps of a run have t ≥ 1 infinitely often. -/
def Fair (t : Nat → Nat) : Prop := ∀ n, ∃ m, n ≤ m ∧ 1 ≤ t m

/-- What a store of n bytes at an image address does: it completes, byte i of the store is at a + i, every other byte of
memory reads as before, and nothing else changes. -/
def Stores (s : State) (r : Result) (a n : Nat) (byte : Nat → Byte) : Prop :=
  ∃ t, r = .next t ∧ t = { s with mem := t.mem, answer := .nothing } ∧
    (∀ i, i < n → t.mem.read (a + i) = byte i) ∧ ∀ b, b < a ∨ a + n ≤ b → t.mem.read b = s.mem.read b

/-- The rows that only record a refusal (R312). -/
def isRefusal : Instr → Bool
  | .refuseUnsupportedWidth _ | .refuseMisalignedBusAccess _ | .refuseUnknownPortOp _ => true
  | _ => false

/-- The loads of the Calibration Register Block. -/
def isRiLoad : Instr → Bool
  | .lwRiMode | .lwRiConfig | .lwRiCurrentLoad | .lwRiSelect | .lwRiRefresh | .lwRiLatency | .lwRiRerror
  | .lwRiWerror => true
  | _ => false

/-- The outcome with the Calibration Register Block replaced by r. -/
def hideRi (r : CalibrationBlock) : Result → Result
  | .next t => .next { t with ri := r }
  | .fault f => .fault f
  | .refused x => .refused x

/-- The time advances of a list, one after the other. -/
def advances (ts : List Nat) (s : State) : State := ts.foldl (fun u t => advance t u) s

/-- The states that the moves of the agents can lead to under the parameters c, from the block as CONSTRUCT makes it or
with any boot state in memory and PIF RAM (R345 item 2, as `Fresh` of R309 leaves both open). DESIGN CHOICE (log entry
19): boot state is placed before the first operation only, since R306's table has no move for it. Issuing what is no move
of an agent leaves the state as it is, so no such operation is ever performed. -/
inductive Reachable (c : Config) : State → Prop where
  | fresh : Reachable c (State.fresh c)
  | boot (m : Memory) (pif : Vector Byte 64) : MemoryInv c m → Reachable c ((State.fresh c).boot m pif)
  | issue (s : State) (e : Issued) : Reachable c s → Reachable c (s.issue e)
  | step (s s' : State) : Reachable c s → Machine.step s = .next s' → Reachable c s'

end Sys2Proof.Machine
end

