-- ==== Sys2Proof/Certificates/Slice0/Obligations.lean ====
section
/-! DEFINITION. The statements about the model, from the numbered rules of spec/. Every statement holds for every value
of the parameters (R6) unless it names one: `s.cfg` is any. A next state is written as the state before with the fields
that change replaced, so each equation also says the frame: nothing else changes, no byte of memory among it. What an
operation returns stands in the field answer, and the events it hands out in events (log entry 5). -/

open Sys2Proof Sys2Proof.Machine

/-! ## Reset and CONSTRUCT -/

/-- R341: every state element after CONSTRUCT, under every value of the parameters; that irq_pending is false then, and the
invariants of R51 hold, is an inference of the spec (R341 marks it as derived from R130) and of R51. -/
def Obligations.ResetState : Prop :=
  (∀ c : Config,
    let s := State.fresh c
    s.mi.cause = 0#6 ∧ s.mi.mask = 0#6 ∧
    s.mi.initLen = 0#7 ∧ s.mi.initMode = false ∧ s.mi.ebusTest = false ∧ s.mi.rdramReg = false ∧
    s.ai.dramAddr = 0#24 ∧ s.ai.len = 0#18 ∧ s.ai.enable = false ∧ s.ai.dacrate = 0#14 ∧ s.ai.bitrate = 0#4 ∧
    s.ai.freq = c.viClock ∧ s.ai.fifo = [] ∧ s.ai.ready = true ∧ s.ai.elapsed = 0 ∧
    s.si.dramAddr = 0#24 ∧ s.si.pifAddr = 0#32 ∧ s.si.dmaBusy = false ∧ s.si.ioBusy = false ∧
    s.si.readPending = false ∧ s.si.dmaError = false ∧ s.si.pchState = 0#4 ∧ s.si.dmaState = 0#4 ∧
    s.si.intr = false ∧ s.si.dir = none ∧ s.si.channel = 0 ∧ s.si.cost = 0 ∧ s.si.elapsed = 0 ∧
    (∀ i (h : i < 64), s.si.pifRam[i] = 0#8) ∧
    s.dpc.start = 0#24 ∧ s.dpc.finish = 0#24 ∧ s.dpc.current = 0#24 ∧
    s.dpc.xbus = false ∧ s.dpc.freeze = false ∧ s.dpc.flush = false ∧ s.dpc.skip = 0 ∧ s.dpc.rows = [] ∧
    s.dpc.cmdReady = false ∧ s.dpc.frameFinished = false ∧
    s.ri.mode = 0#32 ∧ s.ri.config = 0#32 ∧ s.ri.currentLoad = 0#32 ∧ s.ri.select = 0#32 ∧
    s.ri.refresh = 0#32 ∧ s.ri.latency = 0#32 ∧ s.ri.rerror = 0#32 ∧ s.ri.werror = 0#32 ∧
    s.mem = c.memInit ∧ s.refused = none ∧ s.cfg = c ∧ irqPending s = false ∧
    s.ai.fifo.length ≤ 2 ∧ s.ai.ready = decide (s.ai.fifo.length < 2) ∧ (s.ai.fifo = [] → s.ai.elapsed = 0) ∧
    (s.si.dmaBusy = true ↔ s.si.dir ≠ none) ∧ (s.si.dmaBusy = false → s.si.elapsed = 0) ∧
    (s.dpc.rows.map List.length).sum = s.dpc.rows.flatten.length ∧ (∀ r ∈ s.dpc.rows, r ≠ []) ∧
    s.dpc.cmdReady = decide (s.dpc.rows ≠ [])) ∧
  (State.fresh Config.default).ai.freq = 48681812

/-- R340, R314, R312: CONSTRUCT on no block gives the fresh block, or the construction failure where the image cannot be
allocated; on a block that exists it is refused and changes nothing else: that this refusal is a next state with an answer
is deduced (log entry 12, DEDUCED). The fields phase and allocOk, and that events, draws and pending operations go on, are
the model's (log entries 2, 4, 5 and 6). -/
def Obligations.ConstructOnce : Prop :=
  ∀ s : State,
    (s.phase = .absent → s.allocOk = true →
      exec .portConstruct s =
        .next { State.fresh s.cfg with events := s.events, draws := s.draws, pending := s.pending }) ∧
    (s.phase = .absent → s.allocOk = false → exec .portConstruct s = .fault .constructionFailure) ∧
    (s.phase = .live →
      exec .portConstruct s =
        .next { s with
          refused := s.refused.or (some (.unknownPortOp 0x03000000#32))
          answer := .refused (.unknownPortOp 0x03000000#32) })

/-! ## The Interrupt Register -/

/-- R132, R133, R134, R137: the words that the four MI reads return, as numbers; nothing else changes. -/
def Obligations.MiReads : Prop :=
  (∀ s : State,
    (∃ w : Word, exec .lwMiMode s = .next { s with answer := .data (.w w) } ∧
      w.toNat = s.mi.initLen.toNat + 2 ^ 7 * s.mi.initMode.toNat + 2 ^ 8 * s.mi.ebusTest.toNat
        + 2 ^ 9 * s.mi.rdramReg.toNat) ∧
    exec .lwMiVersion s = .next { s with answer := .data (.w s.cfg.miVersion) } ∧
    (∃ w : Word, exec .lwMiIntr s = .next { s with answer := .data (.w w) } ∧ w.toNat = s.mi.cause.toNat) ∧
    ∃ w : Word, exec .lwMiMask s = .next { s with answer := .data (.w w) } ∧ w.toNat = s.mi.mask.toNat) ∧
  Config.default.miVersion = 0x02020102#32

/-- R131: the MI_MODE write. Of a pair of bits the set bit wins; bit 11 clears the DP cause. -/
def Obligations.MiModeWrite : Prop :=
  ∀ (v : Word) (s : State), ∃ t, exec (.swMiMode v) s = .next t ∧
    t = { s with mi := { t.mi with mask := s.mi.mask }, answer := .nothing } ∧
    t.mi.initLen.toNat = v.toNat % 128 ∧
    t.mi.initMode = (v.getLsbD 8 || (!v.getLsbD 7 && s.mi.initMode)) ∧
    t.mi.ebusTest = (v.getLsbD 10 || (!v.getLsbD 9 && s.mi.ebusTest)) ∧
    t.mi.rdramReg = (v.getLsbD 13 || (!v.getLsbD 12 && s.mi.rdramReg)) ∧
    ∀ k, k < 6 → t.mi.cause.getLsbD k = (s.mi.cause.getLsbD k && !(decide (k = 5) && v.getLsbD 11))

/-- R135, R136: the MI_MASK write under each value of P_MI_MASK_WRITE, and which of the two the decoder makes of a write
of that address. -/
def Obligations.MiMaskWrites : Prop :=
  (∀ (v : Word) (s : State), ∃ t, exec (.swMiMaskWholesale v) s = .next t ∧
    t = { s with mi := { s.mi with mask := t.mi.mask }, answer := .nothing } ∧
    ∀ k, k < 6 → t.mi.mask.getLsbD k = v.getLsbD k) ∧
  (∀ (v : Word) (s : State), ∃ t, exec (.swMiMaskBitpair v) s = .next t ∧
    t = { s with mi := { s.mi with mask := t.mi.mask }, answer := .nothing } ∧
    ∀ k, k < 6 → t.mi.mask.getLsbD k = (v.getLsbD (2 * k + 1) || (!v.getLsbD (2 * k) && s.mi.mask.getLsbD k))) ∧
  ∀ (c : Config) (v : Word), c.bases = Bases.default →
    decode c (.bus (.write 0x0430000C#32 (.w v))) =
      (match c.miMaskWrite with
        | .wholesale => .swMiMaskWholesale v
        | .bitpair => .swMiMaskBitpair v)

/-- R138, R250, R156: the writes that are absorbed change no state. -/
def Obligations.AbsorbedWrites : Prop :=
  ∀ (v : Word) (a : Word) (d : Data) (s : State),
    ∀ i ∈ [Instr.swMiVersion v, .swMiIntr v, .swDpcCurrent v, .swDpcClock v, .swDpcBufbusy v, .swDpcPipebusy v,
        .swDpcTmem v, .unmappedW a d],
      exec i s = .next { s with answer := .nothing }

/-- R155, R161: a reserved offset reads P_OPEN_BUS and ignores writes; an unmapped address reads P_OPEN_BUS cut to, or
replicated over, the width of the access. -/
def Obligations.OpenBusAccesses : Prop :=
  ∀ (off : BitVec 20) (a : Word) (v : Word) (s : State),
    (∀ i ∈ [Instr.lwMiReserved off, .lwAiReserved off, .lwSiReserved off, .lwDpcReserved off, .lwRiReserved off],
      exec i s = .next { s with answer := .data (.w s.cfg.openBus) }) ∧
    (∀ i ∈ [Instr.swMiReserved off v, .swAiReserved off v, .swSiReserved off v, .swDpcReserved off v,
        .swRiReserved off v], exec i s = .next { s with answer := .nothing }) ∧
    (∃ x : BitVec 8, exec (.unmappedR a .w1) s = .next { s with answer := .data (.b x) } ∧
      x.toNat = s.cfg.openBus.toNat % 2 ^ 8) ∧
    (∃ x : BitVec 16, exec (.unmappedR a .w2) s = .next { s with answer := .data (.h x) } ∧
      x.toNat = s.cfg.openBus.toNat % 2 ^ 16) ∧
    exec (.unmappedR a .w4) s = .next { s with answer := .data (.w s.cfg.openBus) } ∧
    ∃ x : BitVec 64, exec (.unmappedR a .w8) s = .next { s with answer := .data (.d x) } ∧
      x.toNat = s.cfg.openBus.toNat * 2 ^ 32 + s.cfg.openBus.toNat

/-- R130: QUERY_IRQ answers the OR over the six sources of cause and mask, and writes nothing. -/
def Obligations.AggregatePending : Prop :=
  ∀ s : State, ∃ b : Bool, exec .portQueryIrq s = .next { s with answer := .flag b } ∧
    (b = true ↔ ∃ k, k < 6 ∧ s.mi.cause.getLsbD k = true ∧ s.mi.mask.getLsbD k = true)

/-- R141, R142: RAISE_SOURCE and CLEAR_SOURCE set and clear the one cause bit of an external source; a port word of
either with any other k is refused. -/
def Obligations.ExternalSources : Prop :=
  (∀ (x : ExtSource) (s : State), ∃ t, exec (.portRaiseSource x) s = .next t ∧
    t = { s with mi := { s.mi with cause := t.mi.cause }, answer := .nothing } ∧
    ∀ k, k < 6 → t.mi.cause.getLsbD k = (s.mi.cause.getLsbD k || decide (k = x.number.toNat))) ∧
  (∀ (x : ExtSource) (s : State), ∃ t, exec (.portClearSource x) s = .next t ∧
    t = { s with mi := { s.mi with cause := t.mi.cause }, answer := .nothing } ∧
    ∀ k, k < 6 → t.mi.cause.getLsbD k = (s.mi.cause.getLsbD k && !decide (k = x.number.toNat))) ∧
  ∀ (c : Config) (k : Byte), k ≠ 0#8 → k ≠ 3#8 → k ≠ 4#8 →
    decode c (.port (0x100000#24 ++ k) 0) = .refuseUnknownPortOp (0x100000#24 ++ k) ∧
    decode c (.port (0x110000#24 ++ k) 0) = .refuseUnknownPortOp (0x110000#24 ++ k)

/-- What the spec derives as R145 (its own inference) from R131, R141, R142, R175, R185, R206, R213 and R241: on a block
that exists, a cause bit changes only through the paths of its own source: which operation sets it,
which clears it. -/
def Obligations.CauseOwnership : Prop :=
  ∀ (i : Instr) (s t : State), s.phase = .live → exec i s = .next t →
    (∀ k, k < 6 → s.mi.cause.getLsbD k = false → t.mi.cause.getLsbD k = true →
      (k = 0 ∧ i = .portRaiseSource .sp) ∨ (k = 1 ∧ ∃ n, i = .portAdvance n) ∨ (k = 2 ∧ ∃ n, i = .portAdvance n) ∨
      (k = 3 ∧ i = .portRaiseSource .vi) ∨ (k = 4 ∧ i = .portRaiseSource .pi) ∨ (k = 5 ∧ ∃ v, i = .swDpcEnd v)) ∧
    ∀ k, k < 6 → s.mi.cause.getLsbD k = true → t.mi.cause.getLsbD k = false →
      (k = 0 ∧ i = .portClearSource .sp) ∨ (k = 1 ∧ ∃ v, i = .swSiStatus v) ∨ (k = 2 ∧ ∃ v, i = .swAiStatus v) ∨
      (k = 3 ∧ i = .portClearSource .vi) ∨ (k = 4 ∧ i = .portClearSource .pi) ∨
      (k = 5 ∧ ∃ v, i = .swMiMode v ∧ v.getLsbD 11 = true)

/-! ## The Audio DMA Engine -/

/-- R170, R174, R175, R176, R177: the AI register writes that push nothing. -/
def Obligations.AiRegisterWrites : Prop :=
  ∀ (v : Word) (s : State),
    (∃ t, exec (.swAiDramAddr v) s = .next t ∧
      t = { s with ai := { s.ai with dramAddr := t.ai.dramAddr }, answer := .nothing } ∧
      t.ai.dramAddr.toNat = v.toNat % 2 ^ 24 / 8 * 8) ∧
    exec (.swAiControl v) s = .next { s with ai := { s.ai with enable := v.getLsbD 0 }, answer := .nothing } ∧
    (∃ t, exec (.swAiStatus v) s = .next t ∧
      t = { s with mi := { s.mi with cause := t.mi.cause }, answer := .nothing } ∧
      ∀ k, k < 6 → t.mi.cause.getLsbD k = (s.mi.cause.getLsbD k && !decide (k = 2))) ∧
    (∃ t, exec (.swAiDacrate v) s = .next t ∧
      t = { s with ai := { s.ai with dacrate := t.ai.dacrate, freq := t.ai.freq }, answer := .nothing } ∧
      t.ai.dacrate.toNat = v.toNat % 2 ^ 14 ∧ t.ai.freq = s.cfg.viClock / (v.toNat % 2 ^ 14 + 1)) ∧
    ∃ t, exec (.swAiBitrate v) s = .next t ∧
      t = { s with ai := { s.ai with bitrate := t.ai.bitrate }, answer := .nothing } ∧
      t.ai.bitrate.toNat = v.toNat % 2 ^ 4

/-- R171, R172: the AI_LEN write. A push is accepted only while the ready gate is true and a slot is free; it appends
one slot and hands one event to the host, with the bytes of the memory image in address order (0 beyond the image).
Otherwise only the length is stored. -/
def Obligations.AudioPush : Prop :=
  ∀ (v : Word) (s : State), ∃ t, exec (.swAiLen v) s = .next t ∧
    t.ai.len.toNat = v.toNat % 2 ^ 18 / 8 * 8 ∧
    (s.ai.ready = true ∧ s.ai.fifo.length < 2 →
      ∃ bytes : List Byte,
        t = { s with
          ai := { s.ai with
            len := t.ai.len
            fifo := s.ai.fifo ++ [⟨s.ai.dramAddr, t.ai.len, s.cfg.duration t.ai.len s.ai.dacrate s.ai.bitrate⟩]
            ready := decide (s.ai.fifo = []) }
          events := s.events ++ [.audioOut s.ai.dramAddr t.ai.len s.ai.freq bytes]
          answer := .nothing } ∧
        bytes.length = t.ai.len.toNat ∧
        ∀ i, i < t.ai.len.toNat →
          bytes[i]? = some (if s.ai.dramAddr.toNat + i < s.cfg.rdramBytes then s.mem.read (s.ai.dramAddr.toNat + i)
            else 0#8)) ∧
    (¬ (s.ai.ready = true ∧ s.ai.fifo.length < 2) →
      t = { s with ai := { s.ai with len := t.ai.len }, answer := .nothing })

/-- R173: the default duration, for every clock; with the default clocks the divisor is never 0 and the longest duration
is 2 067 927 465. -/
def Obligations.AudioDuration : Prop :=
  (∀ (c : Config) (len : BitVec 18) (dacrate : BitVec 14) (bitrate : BitVec 4), c.audioDuration = .formula →
    c.duration len dacrate bitrate =
      if c.viClock / (dacrate.toNat + 1) = 0 then 0
      else len.toNat * c.cpuClock / (4 * (c.viClock / (dacrate.toNat + 1)))) ∧
  (∀ dacrate : BitVec 14, Config.default.viClock / (dacrate.toNat + 1) ≠ 0) ∧
  (∀ (len : BitVec 18) (dacrate : BitVec 14) (bitrate : BitVec 4), len.toNat % 8 = 0 →
    Config.default.duration len dacrate bitrate ≤ 2067927465) ∧
  ∀ bitrate : BitVec 4, Config.default.duration 0x3FFF8#18 0x3FFF#14 bitrate = 2067927465

/-- R178 .. R183, R107: the words that the AI reads return, as numbers; nothing else changes. -/
def Obligations.AiReads : Prop :=
  ∀ s : State,
    (∃ w : Word, exec .lwAiDramAddr s = .next { s with answer := .data (.w w) } ∧ w.toNat = s.ai.dramAddr.toNat) ∧
    (∃ w : Word, exec .lwAiLen s = .next { s with answer := .data (.w w) } ∧ w.toNat = s.ai.len.toNat) ∧
    (∃ w : Word, exec .lwAiControl s = .next { s with answer := .data (.w w) } ∧ w.toNat = s.ai.enable.toNat) ∧
    (∃ w : Word, exec .lwAiStatus s = .next { s with answer := .data (.w w) } ∧
      w.toNat = (decide (s.ai.fifo.length = 2)).toNat * (2 ^ 31 + 1) + (decide (1 ≤ s.ai.fifo.length)).toNat * 2 ^ 30
        + s.ai.enable.toNat * 2 ^ 25) ∧
    (∃ w : Word, exec .lwAiDacrate s = .next { s with answer := .data (.w w) } ∧ w.toNat = s.ai.dacrate.toNat) ∧
    ∃ w : Word, exec .lwAiBitrate s = .next { s with answer := .data (.w w) } ∧ w.toNat = s.ai.bitrate.toNat

/-- R302, R184, R185, R212, R213: one time advance. The counter of an engine runs only while the engine has work; at most
one slot pops; each engine sets only its own cause bit. -/
def Obligations.AdvanceEngines : Prop :=
  ∀ (n : Nat) (s : State), ∃ t, exec (.portAdvance n) s = .next t ∧
    t = { s with
      mi := { s.mi with cause := t.mi.cause }
      ai := t.ai
      si := t.si
      answer := .nothing } ∧
    (s.ai.fifo = [] → t.ai = s.ai ∧ t.mi.cause.getLsbD 2 = s.mi.cause.getLsbD 2) ∧
    (∀ slot rest, s.ai.fifo = slot :: rest → s.ai.elapsed + n < slot.dur →
      t.ai = { s.ai with elapsed := s.ai.elapsed + n } ∧ t.mi.cause.getLsbD 2 = s.mi.cause.getLsbD 2) ∧
    (∀ slot rest, s.ai.fifo = slot :: rest → slot.dur ≤ s.ai.elapsed + n →
      t.ai = { s.ai with fifo := rest, ready := true, elapsed := 0 } ∧ t.mi.cause.getLsbD 2 = true) ∧
    (s.si.dmaBusy = false → t.si = s.si ∧ t.mi.cause.getLsbD 1 = s.mi.cause.getLsbD 1) ∧
    (s.si.dmaBusy = true → s.si.elapsed + n < s.si.cost →
      t.si = { s.si with elapsed := s.si.elapsed + n } ∧ t.mi.cause.getLsbD 1 = s.mi.cause.getLsbD 1) ∧
    (s.si.dmaBusy = true → s.si.cost ≤ s.si.elapsed + n →
      t.si = { s.si with dmaBusy := false, dir := none, elapsed := 0, cost := 0, intr := true } ∧
        t.mi.cause.getLsbD 1 = true) ∧
    ∀ k, k < 6 → k ≠ 1 → k ≠ 2 → t.mi.cause.getLsbD k = s.mi.cause.getLsbD k

/-- R187 item 1 as spec/90_conflicts.md C2 and C3 read it: a head slot whose countdown starts pops at the first advance
at which it has been head for its duration, not before, and the AI cause is then set. -/
def Obligations.AudioPopTiming : Prop :=
  ∀ (s : State) (slot : AudioSlot) (rest : List AudioSlot) (ts : List Nat) (u : Nat),
    s.ai.fifo = slot :: rest → s.ai.elapsed = 0 →
    (∀ k, 0 < k → k ≤ ts.length → (ts.take k).sum < slot.dur) → slot.dur ≤ ts.sum + u →
    (advances ts s).ai = { s.ai with elapsed := ts.sum } ∧
    (advances ts s).mi.cause.getLsbD 2 = s.mi.cause.getLsbD 2 ∧
    (advances (ts ++ [u]) s).ai = { s.ai with fifo := rest, ready := true, elapsed := 0 } ∧
    (advances (ts ++ [u]) s).mi.cause.getLsbD 2 = true

/-! ## The Serial DMA Engine -/

/-- R200, R201, R204, R205, R206: the SI registers that start no transaction. -/
def Obligations.SiRegisters : Prop :=
  ∀ (v : Word) (s : State),
    (∃ t, exec (.swSiDramAddr v) s = .next t ∧
      t = { s with si := { s.si with dramAddr := t.si.dramAddr }, answer := .nothing } ∧
      t.si.dramAddr.toNat = v.toNat % 2 ^ 24 / 8 * 8) ∧
    (∃ w : Word, exec .lwSiDramAddr s = .next { s with answer := .data (.w w) } ∧ w.toNat = s.si.dramAddr.toNat) ∧
    exec .lwSiPifAdRd64b s = .next { s with answer := .data (.w s.si.pifAddr) } ∧
    exec .lwSiPifAdWr64b s = .next { s with answer := .data (.w s.si.pifAddr) } ∧
    (∃ w : Word, exec .lwSiStatus s = .next { s with answer := .data (.w w) } ∧
      w.toNat = s.si.dmaBusy.toNat + 2 * s.si.ioBusy.toNat + 4 * s.si.readPending.toNat + 8 * s.si.dmaError.toNat
        + 16 * s.si.pchState.toNat + 256 * s.si.dmaState.toNat + 4096 * s.si.intr.toNat) ∧
    ∃ t, exec (.swSiStatus v) s = .next t ∧
      t = { s with mi := { s.mi with cause := t.mi.cause }, si := { s.si with intr := false }, answer := .nothing } ∧
      ∀ k, k < 6 → t.mi.cause.getLsbD k = (s.mi.cause.getLsbD k && !decide (k = 1))

/-- R207, R217: a request while busy changes nothing at all. -/
def Obligations.SerialBusyRejects : Prop :=
  ∀ (v : Word) (s : State), s.si.dmaBusy = true →
    exec (.swSiPifAdRd64b v) s = .next { s with answer := .nothing } ∧
    exec (.swSiPifAdWr64b v) s = .next { s with answer := .nothing }

/-- R203, R207, R209: an accepted WRITE request copies the 64 bytes of the memory image at the configured address (0
beyond the image) and processes no channel. -/
def Obligations.SerialWriteTransaction : Prop :=
  ∀ (v : Word) (s : State), s.si.dmaBusy = false →
    ∃ t, exec (.swSiPifAdWr64b v) s = .next t ∧
      t = { s with
        si := { s.si with
          pifAddr := v
          dmaBusy := true
          dir := some .write
          elapsed := 0
          channel := 0
          cost := s.cfg.siTransferCost
          pifRam := t.si.pifRam }
        answer := .nothing } ∧
      ∀ i (h : i < 64), t.si.pifRam[i] =
        if s.si.dramAddr.toNat + i < s.cfg.rdramBytes then s.mem.read (s.si.dramAddr.toNat + i) else 0#8

/-- R202, R207, R208, R210: an accepted READ request runs the channel scan from byte 0, channel 0 and cost 0 (its rounds
are ChannelScanLoop, a channel of it ChannelStep) and copies the 64 bytes of PIF RAM to the memory image at once; bytes
beyond the image are dropped, every other byte of memory reads as before, byte 63 of PIF RAM and the bound of the channel
number stay. That the draw counter becomes the scan's is no rule of the spec but the model's choice (log entry 2). -/
def Obligations.SerialReadTransaction : Prop :=
  ∀ (v : Word) (s : State), s.si.dmaBusy = false → MemoryInv s.cfg s.mem →
    let scan := processRam s.cfg 63 0 ⟨s.si.pifRam, 0, 0, s.draws⟩
    ∃ t, exec (.swSiPifAdRd64b v) s = .next t ∧
      t = { s with
        si := { s.si with
          pifAddr := v
          dmaBusy := true
          dir := some .read
          elapsed := 0
          channel := scan.ch
          cost := s.cfg.siTransferCost + scan.total
          pifRam := scan.pif }
        mem := t.mem
        draws := scan.draws
        answer := .nothing } ∧
      t.si.channel ≤ 6 ∧ t.si.pifRam[63] = s.si.pifRam[63] ∧
      (∀ i (h : i < 64), s.si.dramAddr.toNat + i < s.cfg.rdramBytes →
        t.mem.read (s.si.dramAddr.toNat + i) = t.si.pifRam[i]) ∧
      ∀ b, b < s.si.dramAddr.toNat ∨ s.si.dramAddr.toNat + 64 ≤ b ∨ s.cfg.rdramBytes ≤ b →
        t.mem.read b = s.mem.read b

/-- R210: the channel scan is the rule's loop, from every index: the bound of 63 rounds that makes it a total function
cuts nothing off. -/
def Obligations.ChannelScanLoop : Prop :=
  ∀ (c : Config) (i : Nat) (z : ChannelScan),
    processRam c 63 i z =
      if i < 63 ∧ z.ch < 6 then
        let b := (z.pif[i]?.getD 0#8).toNat
        let tx := b % 64
        let rx := (z.pif[i + 1]?.getD 0#8).toNat % 64
        if b = 0xFE then z
        else if b = 0xFF ∨ b = 0xFD then processRam c 63 (i + 1) z
        else if b = 0x00 then processRam c 63 (i + 1) { z with ch := z.ch + 1 }
        else if 63 < i + 2 + tx + rx then z
        else processRam c 63 (i + 2 + tx + rx) { processChannel c i tx rx z with ch := z.ch + 1 }
      else z

/-- R211, R215: one channel. The device sees the tx command bytes; where none answers, bit 7 of the RX byte is set; an
answer has rx bytes and fills the response field; no other byte of PIF RAM changes, and the cost of the channel is
added. -/
def Obligations.ChannelStep : Prop :=
  ∀ (c : Config) (i tx rx : Nat) (z : ChannelScan), i + 2 + tx + rx ≤ 63 →
    ∃ cmd : List Byte, cmd.length = tx ∧ (∀ j, j < tx → cmd[j]? = z.pif[i + 2 + j]?) ∧
      (processChannel c i tx rx z).ch = z.ch ∧
      (processChannel c i tx rx z).total = z.total + c.siChannelCost.getD z.ch 0 ∧
      (joybusDevice c z.draws z.ch cmd rx = none →
        (∀ b, z.pif[i + 1]? = some b → (processChannel c i tx rx z).pif[i + 1]? = some (b ||| 0x80#8)) ∧
        ∀ j, j ≠ i + 1 → (processChannel c i tx rx z).pif[j]? = z.pif[j]?) ∧
      ∀ bs, joybusDevice c z.draws z.ch cmd rx = some bs →
        bs.length = rx ∧ (∀ j, j < rx → (processChannel c i tx rx z).pif[i + 2 + tx + j]? = bs[j]?) ∧
        ∀ j, j < i + 2 + tx ∨ i + 2 + tx + rx ≤ j → (processChannel c i tx rx z).pif[j]? = z.pif[j]?

/-- R216: the default device, with a pad the host fixes or, as under the default parameters, one that is free at each draw
(HostPad(0), log entry 2; of its value nothing is said but that the answer holds its bytes). That bytes after the command code are not looked at and that an
empty command gets no answer is the model's reading (log entry 8). -/
def Obligations.DefaultDevice : Prop :=
  ∀ (c : Config) (pad : Option Word) (draw ch rx : Nat) (code : Byte) (more : List Byte),
    c.joybus = .standardController pad →
    (0 < ch → joybusDevice c draw ch (code :: more) rx = none) ∧
    joybusDevice c draw ch [] rx = none ∧
    (code = 0x00#8 ∨ code = 0xFF#8 → ∃ bs, joybusDevice c draw 0 (code :: more) rx = some bs ∧ bs.length = rx ∧
      ∀ j, j < rx → bs[j]? = some ([0x05#8, 0x00#8, 0x02#8].getD j 0#8)) ∧
    (code = 0x01#8 → ∃ bs, joybusDevice c draw 0 (code :: more) rx = some bs ∧ bs.length = rx ∧
      ∀ j, j < rx → bs[j]? = some (if j < 4 then (pad.getD (Config.hostPad draw)).extractLsb' (8 * (3 - j)) 8
        else 0#8)) ∧
    (code ≠ 0x00#8 → code ≠ 0xFF#8 → code ≠ 0x01#8 → joybusDevice c draw 0 (code :: more) rx = none)

/-- R212, R213, R217 item 3: a transaction completes at the first advance at which its cost has elapsed, not before, and
the SI cause and si_intr are then set. -/
def Obligations.SerialCompletionTiming : Prop :=
  ∀ (s : State) (ts : List Nat) (u : Nat), s.si.dmaBusy = true → s.si.elapsed = 0 →
    (∀ k, 0 < k → k ≤ ts.length → (ts.take k).sum < s.si.cost) → s.si.cost ≤ ts.sum + u →
    (advances ts s).si = { s.si with elapsed := ts.sum } ∧
    (advances ts s).mi.cause.getLsbD 1 = s.mi.cause.getLsbD 1 ∧
    (advances (ts ++ [u]) s).si =
      { s.si with dmaBusy := false, dir := none, elapsed := 0, cost := 0, intr := true } ∧
    (advances (ts ++ [u]) s).mi.cause.getLsbD 1 = true

/-- R304, of a run of time advances with no operation between them: where infinitely many of them have t ≥ 1, every queued
slot pops and the accepted request completes, from every state. -/
def Obligations.FairAdvancesFinish : Prop :=
  ∀ (t : Nat → Nat) (s : State), Fair t →
    ∃ n, (advances ((List.range n).map t) s).ai.fifo = [] ∧ (advances ((List.range n).map t) s).si.dmaBusy = false

/-- R159, R160: PIF RAM word by word, big-endian; a write changes its four bytes and nothing else. -/
def Obligations.PifRamAccess : Prop :=
  ∀ (j : BitVec 4) (v : Word) (s : State),
    (∃ w : Word, exec (.lwPifRam j) s = .next { s with answer := .data (.w w) } ∧
      w.toNat = (s.si.pifRam[4 * j.toNat]?.getD 0#8).toNat * 2 ^ 24
        + (s.si.pifRam[4 * j.toNat + 1]?.getD 0#8).toNat * 2 ^ 16
        + (s.si.pifRam[4 * j.toNat + 2]?.getD 0#8).toNat * 2 ^ 8
        + (s.si.pifRam[4 * j.toNat + 3]?.getD 0#8).toNat) ∧
    ∃ t, exec (.swPifRam j v) s = .next t ∧
      t = { s with si := { s.si with pifRam := t.si.pifRam }, answer := .nothing } ∧
      (∀ i, i < 4 → t.si.pifRam[4 * j.toNat + i]? = some (v.extractLsb' (8 * (3 - i)) 8)) ∧
      ∀ i, i < 4 * j.toNat ∨ 4 * j.toNat + 4 ≤ i → t.si.pifRam[i]? = s.si.pifRam[i]?

/-! ## The Display Command Interface -/

/-- R240, R244: the DPC_START and DPC_STATUS writes. -/
def Obligations.DpcRegisterWrites : Prop :=
  ∀ (v : Word) (s : State),
    (∃ t, exec (.swDpcStart v) s = .next t ∧
      t = { s with dpc := { s.dpc with start := t.dpc.start, current := t.dpc.start }, answer := .nothing } ∧
      t.dpc.start.toNat = v.toNat % 2 ^ 24 / 8 * 8) ∧
    exec (.swDpcStatus v) s = .next { s with
      dpc := { s.dpc with
        xbus := v.getLsbD 1 || (!v.getLsbD 0 && s.dpc.xbus)
        freeze := v.getLsbD 3 || (!v.getLsbD 2 && s.dpc.freeze)
        flush := v.getLsbD 5 || (!v.getLsbD 4 && s.dpc.flush) }
      answer := .nothing }

/-- R241, R242: the DPC_END write that is not held. The words come from the memory image, big-endian, 0 beyond it; with
dpc_xbus each word is a free value, and nothing is said of it but that it was drawn (log entry 2). Which commands begin
in the row is ScanBoundaries' business. -/
def Obligations.DpcEndIngest : Prop :=
  ∀ (v : Word) (s : State), s.dpc.frameFinished = false →
    ∃ (t : State) (row : List Word) (sync : Bool), exec (.swDpcEnd v) s = .next t ∧
      t.dpc.finish.toNat = v.toNat % 2 ^ 24 / 8 * 8 ∧
      row.length = (if s.dpc.current.toNat < t.dpc.finish.toNat
        then (t.dpc.finish.toNat - s.dpc.current.toNat) / 4 else 0) ∧
      (s.dpc.xbus = false → ∀ i, i < row.length → ∃ w : Word, row[i]? = some w ∧
        let byte := fun n => (if s.dpc.current.toNat + 4 * i + n < s.cfg.rdramBytes
          then s.mem.read (s.dpc.current.toNat + 4 * i + n) else 0#8).toNat
        w.toNat = byte 0 * 2 ^ 24 + byte 1 * 2 ^ 16 + byte 2 * 2 ^ 8 + byte 3) ∧
      (t.dpc.skip, sync) = scanRow s.cfg s.dpc.skip row ∧
      t = { s with
        mi := { s.mi with cause := t.mi.cause }
        dpc := { s.dpc with
          finish := t.dpc.finish
          current := t.dpc.finish
          skip := t.dpc.skip
          rows := if row = [] then s.dpc.rows else s.dpc.rows ++ [row]
          cmdReady := s.dpc.cmdReady || decide (row ≠ [])
          frameFinished := sync }
        draws := s.draws + (if s.dpc.xbus then row.length else 0)
        answer := .nothing } ∧
      ∀ k, k < 6 → t.mi.cause.getLsbD k = (s.mi.cause.getLsbD k || (decide (k = 5) && sync))

/-- R243: the scan. Words of a command that began earlier are passed over; only the first word of a command is decoded,
its id in bits 29:24; a command that runs past the end of a row goes on in the next one, so that a display list gives the
same commands wherever it is cut into rows. -/
def Obligations.ScanBoundaries : Prop :=
  ∀ c : Config,
    (∀ (skip : Nat) (row : List Word), row.length ≤ skip → scanRow c skip row = (skip - row.length, false)) ∧
    (∀ (w : Word) (row : List Word),
      let id := w.toNat / 2 ^ 24 % 64
      let after := scanRow c (2 * c.rdpCmdLen.getD id 1 - 1) row
      scanRow c 0 (w :: row) = (after.1, decide (id = c.syncFullId.toNat) || after.2)) ∧
    ∀ (skip : Nat) (r1 r2 : List Word),
      scanRow c skip (r1 ++ r2) =
        ((scanRow c (scanRow c skip r1).1 r2).1, (scanRow c skip r1).2 || (scanRow c (scanRow c skip r1).1 r2).2)

/-- R258: the default command lengths, all 64 ids. -/
def Obligations.CommandLengths : Prop :=
  ∀ id : BitVec 6, Config.default.cmdLen id =
    (match id.toNat with
      | 0x08 => 4
      | 0x09 => 6
      | 0x0A => 12
      | 0x0B => 14
      | 0x0C => 12
      | 0x0D => 14
      | 0x0E => 20
      | 0x0F => 22
      | 0x24 => 2
      | 0x25 => 2
      | _ => 1)

/-- R245 .. R249: the words that the DPC reads return, as numbers; nothing else changes. -/
def Obligations.DpcReads : Prop :=
  ∀ s : State,
    (∃ w : Word, exec .lwDpcStart s = .next { s with answer := .data (.w w) } ∧ w.toNat = s.dpc.start.toNat) ∧
    (∃ w : Word, exec .lwDpcEnd s = .next { s with answer := .data (.w w) } ∧ w.toNat = s.dpc.finish.toNat) ∧
    (∃ w : Word, exec .lwDpcCurrent s = .next { s with answer := .data (.w w) } ∧ w.toNat = s.dpc.current.toNat) ∧
    (∃ w : Word, exec .lwDpcStatus s = .next { s with answer := .data (.w w) } ∧
      w.toNat = s.dpc.xbus.toNat + 2 * s.dpc.freeze.toNat + 4 * s.dpc.flush.toNat + 2 ^ 7) ∧
    ∀ i ∈ [Instr.lwDpcClock, .lwDpcBufbusy, .lwDpcPipebusy, .lwDpcTmem],
      exec i s = .next { s with answer := .data (.w 0#32) }

/-- R251 .. R256, R260: the consumer's ports, each with its frame, and that the exported lengths add up to the exported
words. -/
def Obligations.ConsumerPorts : Prop :=
  ∀ s : State,
    exec .portQueryCmdReady s = .next { s with answer := .flag s.dpc.cmdReady } ∧
    exec .portQueryFrameFinished s = .next { s with answer := .flag s.dpc.frameFinished } ∧
    (∃ (ws : List Word) (ns : List Nat),
      exec .portExportWords s = .next { s with answer := .words ws } ∧
      exec .portExportRowLengths s = .next { s with answer := .lengths ns } ∧
      ws = s.dpc.rows.flatten ∧ ns.length = s.dpc.rows.length ∧
      (∀ k : Nat, ns[k]? = (s.dpc.rows[k]?).map List.length) ∧ ns.sum = ws.length) ∧
    exec .portClearCommands s =
      .next { s with dpc := { s.dpc with rows := [], cmdReady := false }, answer := .nothing } ∧
    exec .portClearFrameFinished s = .next { s with dpc := { s.dpc with frameFinished := false }, answer := .nothing }

/-- R241, R313: while the frame-finished flag is true a DPC_END write has no step. That everything the stepping loop issued
behind it waits, that the host's CLEAR_FRAME_FINISHED is performed ahead of them, and that the machine is stuck with
heldDpcEnd where nothing but them is issued, is deduced from R313 (log entry 11, DEDUCED). The queue is the model's (log
entry 4). -/
def Obligations.DpcEndHeld : Prop :=
  (∀ (v : Word) (s : State), s.dpc.frameFinished = true → exec (.swDpcEnd v) s = .fault .heldDpcEnd) ∧
  ∀ (v : Word) (waiting : List Issued) (s : State),
    s.cfg.bases = Bases.default → s.phase = .live → s.dpc.frameFinished = true →
    (∀ e ∈ waiting, e.agent = .steppingLoop) →
    let write : Issued := ⟨.steppingLoop, .bus (.write 0x04100004#32 (.w v))⟩
    let clear : Issued := ⟨.host, .port 0x25000000#32 0⟩
    (s.pending = write :: waiting → step s = .fault .heldDpcEnd) ∧
    (s.pending = write :: (waiting ++ [clear]) →
      step s = .next { s with
        dpc := { s.dpc with frameFinished := false }, pending := write :: waiting, answer := .nothing })

/-- R257, R42, R260 items 3 and 5: on a block that exists, rows are only ever appended one at a time by a DPC_END write
or all removed by CLEAR_COMMANDS; while the frame-finished flag is true nothing is appended, and only
CLEAR_FRAME_FINISHED takes the flag away. -/
def Obligations.HandshakeWindow : Prop :=
  ∀ (i : Instr) (s t : State), s.phase = .live → exec i s = .next t →
    (t.dpc.rows = s.dpc.rows ∨ (i = .portClearCommands ∧ t.dpc.rows = []) ∨
      (s.dpc.frameFinished = false ∧ (∃ v, i = .swDpcEnd v) ∧ ∃ row, row ≠ [] ∧ t.dpc.rows = s.dpc.rows ++ [row])) ∧
    (s.dpc.frameFinished = true → t.dpc.frameFinished = true ∨ i = .portClearFrameFinished) ∧
    (s.dpc.frameFinished = false → t.dpc.frameFinished = true → ∃ v, i = .swDpcEnd v)

/-! ## The Calibration Register Block -/

/-- R280 .. R287: each RI register is written and read in full; the other seven and everything else stay. -/
def Obligations.RiRegisters : Prop :=
  ∀ (v : Word) (s : State),
    exec (.swRiMode v) s = .next { s with ri := { s.ri with mode := v }, answer := .nothing } ∧
    exec (.swRiConfig v) s = .next { s with ri := { s.ri with config := v }, answer := .nothing } ∧
    exec (.swRiCurrentLoad v) s = .next { s with ri := { s.ri with currentLoad := v }, answer := .nothing } ∧
    exec (.swRiSelect v) s = .next { s with ri := { s.ri with select := v }, answer := .nothing } ∧
    exec (.swRiRefresh v) s = .next { s with ri := { s.ri with refresh := v }, answer := .nothing } ∧
    exec (.swRiLatency v) s = .next { s with ri := { s.ri with latency := v }, answer := .nothing } ∧
    exec (.swRiRerror v) s = .next { s with ri := { s.ri with rerror := v }, answer := .nothing } ∧
    exec (.swRiWerror v) s = .next { s with ri := { s.ri with werror := v }, answer := .nothing } ∧
    exec .lwRiMode s = .next { s with answer := .data (.w s.ri.mode) } ∧
    exec .lwRiConfig s = .next { s with answer := .data (.w s.ri.config) } ∧
    exec .lwRiCurrentLoad s = .next { s with answer := .data (.w s.ri.currentLoad) } ∧
    exec .lwRiSelect s = .next { s with answer := .data (.w s.ri.select) } ∧
    exec .lwRiRefresh s = .next { s with answer := .data (.w s.ri.refresh) } ∧
    exec .lwRiLatency s = .next { s with answer := .data (.w s.ri.latency) } ∧
    exec .lwRiRerror s = .next { s with answer := .data (.w s.ri.rerror) } ∧
    exec .lwRiWerror s = .next { s with answer := .data (.w s.ri.werror) }

/-- R288: no value in ri changes what any operation does: two states that differ only in ri give outcomes that differ
only in ri, for every operation but the loads of RI themselves. -/
def Obligations.RiNoninterference : Prop :=
  ∀ (i : Instr) (s : State) (r z : CalibrationBlock), isRiLoad i = false →
    hideRi z (exec i { s with ri := r }) = hideRi z (exec i s)

/-! ## The memory image and the bus -/

/-- R152, R76: the loads of the memory image, big-endian; nothing else changes. The well-formed loads are those the
decoder makes: aligned and inside the image. -/
def Obligations.MemoryLoads : Prop :=
  ∀ (a : Word) (s : State),
    let byte := fun n => (s.mem.read (a.toNat + n)).toNat
    (WellFormed s.cfg (.lbMem a) = true →
      ∃ x : BitVec 8, exec (.lbMem a) s = .next { s with answer := .data (.b x) } ∧ x.toNat = byte 0) ∧
    (WellFormed s.cfg (.lhMem a) = true →
      ∃ x : BitVec 16, exec (.lhMem a) s = .next { s with answer := .data (.h x) } ∧
        x.toNat = byte 0 * 256 + byte 1) ∧
    (WellFormed s.cfg (.lwMem a) = true →
      ∃ x : BitVec 32, exec (.lwMem a) s = .next { s with answer := .data (.w x) } ∧
        x.toNat = byte 0 * 256 ^ 3 + byte 1 * 256 ^ 2 + byte 2 * 256 + byte 3) ∧
    (WellFormed s.cfg (.ldMem a) = true →
      ∃ x : BitVec 64, exec (.ldMem a) s = .next { s with answer := .data (.d x) } ∧
        x.toNat = byte 0 * 256 ^ 7 + byte 1 * 256 ^ 6 + byte 2 * 256 ^ 5 + byte 3 * 256 ^ 4 + byte 4 * 256 ^ 3
          + byte 5 * 256 ^ 2 + byte 6 * 256 + byte 7)

/-- R153, R76: the stores to the memory image, big-endian: byte i of an n-byte store is bits 8(n-1-i)+7 .. 8(n-1-i), and
every byte outside the stored ones reads as before. -/
def Obligations.MemoryStores : Prop :=
  ∀ (a : Word) (s : State), MemoryInv s.cfg s.mem →
    (∀ v : BitVec 8, WellFormed s.cfg (.sbMem a v) = true →
      Stores s (exec (.sbMem a v) s) a.toNat 1 fun i => v.extractLsb' (8 * (0 - i)) 8) ∧
    (∀ v : BitVec 16, WellFormed s.cfg (.shMem a v) = true →
      Stores s (exec (.shMem a v) s) a.toNat 2 fun i => v.extractLsb' (8 * (1 - i)) 8) ∧
    (∀ v : BitVec 32, WellFormed s.cfg (.swMem a v) = true →
      Stores s (exec (.swMem a v) s) a.toNat 4 fun i => v.extractLsb' (8 * (3 - i)) 8) ∧
    ∀ v : BitVec 64, WellFormed s.cfg (.sdMem a v) = true →
      Stores s (exec (.sdMem a v) s) a.toNat 8 fun i => v.extractLsb' (8 * (7 - i)) 8

/-- What the spec derives as R77 (its own inference) from R76: what a store put is what the next load of the same bytes
gives, whatever the two widths. -/
def Obligations.MixedWidths : Prop :=
  ∀ (a : Word) (v : BitVec 32) (s t : State), MemoryInv s.cfg s.mem → WellFormed s.cfg (.swMem a v) = true →
    exec (.swMem a v) s = .next t →
      exec (.lwMem a) t = .next { t with answer := .data (.w v) } ∧
      (∀ i : Nat, i < 4 → exec (.lbMem (a + BitVec.ofNat 32 i)) t =
        .next { t with answer := .data (.b (v.extractLsb' (8 * (3 - i)) 8)) }) ∧
      exec (.lhMem a) t = .next { t with answer := .data (.h (v.extractLsb' 16 16)) } ∧
      exec (.lhMem (a + 2#32)) t = .next { t with answer := .data (.h (v.extractLsb' 0 16)) } ∧
      (a.toNat % 8 = 0 →
        ∃ x : BitVec 64, exec (.ldMem a) t = .next { t with answer := .data (.d x) } ∧ x.extractLsb' 32 32 = v)

/-- A model stop (the fault outsideImage, said under '## Assumptions' of NOTES.md): a MEM operation whose operand does not
lie in the memory image stops; R152 gives it no meaning, and no request decodes to one (DecodeWellFormed). -/
def Obligations.OutsideImageStops : Prop :=
  ∀ (a : Word) (s : State) (v1 : BitVec 8) (v2 : BitVec 16) (v4 : BitVec 32) (v8 : BitVec 64),
    (s.cfg.rdramBytes < a.toNat + 1 →
      exec (.lbMem a) s = .fault .outsideImage ∧ exec (.sbMem a v1) s = .fault .outsideImage) ∧
    (s.cfg.rdramBytes < a.toNat + 2 →
      exec (.lhMem a) s = .fault .outsideImage ∧ exec (.shMem a v2) s = .fault .outsideImage) ∧
    (s.cfg.rdramBytes < a.toNat + 4 →
      exec (.lwMem a) s = .fault .outsideImage ∧ exec (.swMem a v4) s = .fault .outsideImage) ∧
    (s.cfg.rdramBytes < a.toNat + 8 →
      exec (.ldMem a) s = .fault .outsideImage ∧ exec (.sdMem a v8) s = .fault .outsideImage)

/-- R154: an external read answers some value of the width asked for, an external write is handed to the owner; no state
of the block changes. The value read is free, and nothing is said of it (log entries 2 and 5). -/
def Obligations.ExternalAccesses : Prop :=
  ∀ (a : Word) (n : Width) (d : Data) (s : State),
    (∃ x : Data, x.width = n ∧
      exec (.extR a n) s = .next { s with answer := .data x, draws := s.draws + 1 }) ∧
    exec (.extW a d) s = .next { s with events := s.events ++ [.extWrite a d], answer := .nothing }

/-- R312, R157, R158, R115 item 4: a refused operation changes nothing but the record, which keeps the first reason. That it
is a next state which answers with its refusal is deduced (log entry 12, DEDUCED). -/
def Obligations.RefusalsRecorded : Prop :=
  ∀ (op : BusOp) (word : Word) (s : State),
    (s.refused = none →
      exec (.refuseUnsupportedWidth op) s =
        .next { s with
          refused := some (.unsupportedWidth op.addr op.width)
          answer := .refused (.unsupportedWidth op.addr op.width) } ∧
      exec (.refuseMisalignedBusAccess op) s =
        .next { s with
          refused := some (.misalignedBusAccess op.addr op.width)
          answer := .refused (.misalignedBusAccess op.addr op.width) } ∧
      exec (.refuseUnknownPortOp word) s =
        .next { s with refused := some (.unknownPortOp word), answer := .refused (.unknownPortOp word) }) ∧
    (s.refused ≠ none →
      exec (.refuseUnsupportedWidth op) s =
        .next { s with answer := .refused (.unsupportedWidth op.addr op.width) } ∧
      exec (.refuseMisalignedBusAccess op) s =
        .next { s with answer := .refused (.misalignedBusAccess op.addr op.width) } ∧
      exec (.refuseUnknownPortOp word) s = .next { s with answer := .refused (.unknownPortOp word) })

/-- R312: over all operations on a block that exists, a record once set stays as it is, and only a refused operation sets
it. -/
def Obligations.RefusalRecordStays : Prop :=
  ∀ (i : Instr) (s t : State), s.phase = .live → exec i s = .next t →
    (s.refused ≠ none → t.refused = s.refused) ∧
    (s.refused = none → t.refused ≠ none → isRefusal i = true ∨ i = .portConstruct)

/-- R80 for the reads, and the refused forms as log entry 12 deduces them: a bus read of any address that is not external
completes, changes no state but the refusal record of a refused one, and repeated gives the same state again. An aligned
read of an admitted width is not refused and returns a value of that width. -/
def Obligations.ReadsHaveNoSideEffects : Prop :=
  ∀ (a : Word) (n : Width) (s : State), route s.cfg a ≠ .external →
    ∃ t, exec (decode s.cfg (.bus (.read a n))) s = .next t ∧
      t = { s with answer := t.answer, refused := t.refused } ∧
      (aligned a n = true → n = .w4 ∨ route s.cfg a = .memoryImage ∨ route s.cfg a = .unmapped →
        t.refused = s.refused ∧ ∃ d : Data, t.answer = .data d ∧ d.width = n) ∧
      exec (decode t.cfg (.bus (.read a n))) t = .next t

/-- R114: for each register whose write layout is its read layout, reading after writing v gives v masked by the field
mask. -/
def Obligations.WriteThenRead : Prop :=
  ∀ v : Word,
    (∀ p ∈ [(Instr.swAiDramAddr v, Instr.lwAiDramAddr, 0x00FFFFF8#32), (.swAiLen v, .lwAiLen, 0x0003FFF8#32),
        (.swAiDacrate v, .lwAiDacrate, 0x00003FFF#32), (.swAiBitrate v, .lwAiBitrate, 0x0000000F#32),
        (.swSiDramAddr v, .lwSiDramAddr, 0x00FFFFF8#32), (.swDpcStart v, .lwDpcStart, 0x00FFFFF8#32),
        (.swMiMaskWholesale v, .lwMiMask, 0x0000003F#32),
        (.swRiMode v, .lwRiMode, 0xFFFFFFFF#32), (.swRiConfig v, .lwRiConfig, 0xFFFFFFFF#32),
        (.swRiCurrentLoad v, .lwRiCurrentLoad, 0xFFFFFFFF#32), (.swRiSelect v, .lwRiSelect, 0xFFFFFFFF#32),
        (.swRiRefresh v, .lwRiRefresh, 0xFFFFFFFF#32), (.swRiLatency v, .lwRiLatency, 0xFFFFFFFF#32),
        (.swRiRerror v, .lwRiRerror, 0xFFFFFFFF#32), (.swRiWerror v, .lwRiWerror, 0xFFFFFFFF#32)],
      ∀ s : State, ∃ t u, exec p.1 s = .next t ∧ exec p.2.1 t = .next u ∧ u.answer = .data (.w (v &&& p.2.2)))

/-! ## Decoding -/

/-- R71, R72: the owner of every address, in numbers; the rows of the address map are disjoint and cover the whole 32-bit
space, and Route names the one row that holds an address; an aligned access to an address of no owner is a no-op read of a
fixed value and a no-op write. -/
def Obligations.AddressMapTotal : Prop :=
  ∀ (c : Config) (a : Word), c.bases = Bases.default →
    let between := fun lo hi : Nat => lo ≤ a.toNat ∧ a.toNat ≤ hi
    (c.rdramSize = .mib4 → c.rdramBytes = 0x00400000) ∧ (c.rdramSize = .mib8 → c.rdramBytes = 0x00800000) ∧
    (route c a = .memoryImage ↔ a.toNat < c.rdramBytes) ∧
    (route c a = .dpc ↔ between 0x04100000 0x041FFFFF) ∧
    (route c a = .mi ↔ between 0x04300000 0x043FFFFF) ∧
    (route c a = .ai ↔ between 0x04500000 0x045FFFFF) ∧
    (route c a = .ri ↔ between 0x04700000 0x047FFFFF) ∧
    (route c a = .si ↔ between 0x04800000 0x048FFFFF) ∧
    (route c a = .pifRam ↔ between 0x1FC007C0 0x1FC007FF) ∧
    (route c a = .external ↔
      between 0x03F00000 0x03FFFFFF ∨ between 0x04000000 0x040FFFFF ∨ between 0x04200000 0x042FFFFF ∨
        between 0x04400000 0x044FFFFF ∨ between 0x04600000 0x046FFFFF ∨ between 0x05000000 0x1FBFFFFF ∨
        between 0x1FC00000 0x1FC007BF ∨ between 0x1FD00000 0x7FFFFFFF) ∧
    (route c a = .unmapped ↔
      between c.rdramBytes 0x03EFFFFF ∨ between 0x04900000 0x04FFFFFF ∨ between 0x1FC00800 0x1FCFFFFF ∨
        between 0x80000000 0xFFFFFFFF) ∧
    (∃ r ∈ regions c, r.holds a.toNat = true ∧ route c a = r.owner ∧
      ∀ r' ∈ regions c, r'.holds a.toNat = true → r' = r) ∧
    (route c a = .unmapped → ∀ s : State, s.cfg = c →
      (∀ n, aligned a n = true →
        exec (decode c (.bus (.read a n))) s = .next { s with answer := .data (openBusData c n) }) ∧
      ∀ d : Data, aligned a d.width = true →
        exec (decode c (.bus (.write a d))) s = .next { s with answer := .nothing })

/-- R102: the first tests of the decoder. A bus operation is refused as misaligned exactly when its address is not a
multiple of its width; else it is refused for its width exactly when it goes to a register block or to PIF RAM with a
width other than 4. -/
def Obligations.BusRefusals : Prop :=
  ∀ (c : Config) (op : BusOp), c.bases = Bases.default →
    (decode c (.bus op) = .refuseMisalignedBusAccess op ↔ op.addr.toNat % op.width.bytes ≠ 0) ∧
    (decode c (.bus op) = .refuseUnsupportedWidth op ↔
      op.addr.toNat % op.width.bytes = 0 ∧ op.width ≠ .w4 ∧
        route c op.addr ∈ [.mi, .ai, .si, .dpc, .ri, .pifRam])

/-- R115 item 4, R101: a port word is refused exactly when bits 23:8 are not 0, or its code is not in R113's table, or its
k is not admitted for its code. -/
def Obligations.PortRefusals : Prop :=
  ∀ (c : Config) (word : Word) (t : Nat),
    decode c (.port word t) = .refuseUnknownPortOp word ↔
      ¬ (word.toNat / 2 ^ 8 % 2 ^ 16 = 0 ∧
        ((word.toNat / 2 ^ 24 ∈ [0x10, 0x11] ∧ word.toNat % 2 ^ 8 ∈ [0, 3, 4]) ∨
          (word.toNat / 2 ^ 24 ∈ [0x01, 0x02, 0x03, 0x20, 0x21, 0x22, 0x23, 0x24, 0x25] ∧ word.toNat % 2 ^ 8 = 0)))

/-- R103, R105, R106, R108, R110, R112, R113, R115 item 1, R91, R71: every row of the encoding tables decodes to what it
stands for, for every written word and under every value of the parameters with the default bases; so do the accesses to
the memory image, to an external range and to an unmapped address. After them, words of spec/95_test_vectors.md under the
default parameters. -/
def Obligations.DecodeSpecWords : Prop :=
  (∀ (c : Config) (v : Word), c.bases = Bases.default →
    let r := fun a : Word => decode c (.bus (.read a .w4))
    let w := fun a : Word => decode c (.bus (.write a (.w v)))
    let p := fun word : Word => decode c (.port word 0)
    r 0x04300000#32 = .lwMiMode ∧ w 0x04300000#32 = .swMiMode v ∧ r 0x04300004#32 = .lwMiVersion ∧
    w 0x04300004#32 = .swMiVersion v ∧ r 0x04300008#32 = .lwMiIntr ∧ w 0x04300008#32 = .swMiIntr v ∧
    r 0x0430000C#32 = .lwMiMask ∧ (c.miMaskWrite = .wholesale → w 0x0430000C#32 = .swMiMaskWholesale v) ∧
    (c.miMaskWrite = .bitpair → w 0x0430000C#32 = .swMiMaskBitpair v) ∧ r 0x04500000#32 = .lwAiDramAddr ∧
    w 0x04500000#32 = .swAiDramAddr v ∧ r 0x04500004#32 = .lwAiLen ∧ w 0x04500004#32 = .swAiLen v ∧
    r 0x04500008#32 = .lwAiControl ∧ w 0x04500008#32 = .swAiControl v ∧ r 0x0450000C#32 = .lwAiStatus ∧
    w 0x0450000C#32 = .swAiStatus v ∧ r 0x04500010#32 = .lwAiDacrate ∧ w 0x04500010#32 = .swAiDacrate v ∧
    r 0x04500014#32 = .lwAiBitrate ∧ w 0x04500014#32 = .swAiBitrate v ∧ r 0x04800000#32 = .lwSiDramAddr ∧
    w 0x04800000#32 = .swSiDramAddr v ∧ r 0x04800004#32 = .lwSiPifAdRd64b ∧ w 0x04800004#32 = .swSiPifAdRd64b v ∧
    r 0x04800010#32 = .lwSiPifAdWr64b ∧ w 0x04800010#32 = .swSiPifAdWr64b v ∧ r 0x04800018#32 = .lwSiStatus ∧
    w 0x04800018#32 = .swSiStatus v ∧ r 0x04100000#32 = .lwDpcStart ∧ w 0x04100000#32 = .swDpcStart v ∧
    r 0x04100004#32 = .lwDpcEnd ∧ w 0x04100004#32 = .swDpcEnd v ∧ r 0x04100008#32 = .lwDpcCurrent ∧
    w 0x04100008#32 = .swDpcCurrent v ∧ r 0x0410000C#32 = .lwDpcStatus ∧ w 0x0410000C#32 = .swDpcStatus v ∧
    r 0x04100010#32 = .lwDpcClock ∧ w 0x04100010#32 = .swDpcClock v ∧ r 0x04100014#32 = .lwDpcBufbusy ∧
    w 0x04100014#32 = .swDpcBufbusy v ∧ r 0x04100018#32 = .lwDpcPipebusy ∧ w 0x04100018#32 = .swDpcPipebusy v ∧
    r 0x0410001C#32 = .lwDpcTmem ∧ w 0x0410001C#32 = .swDpcTmem v ∧ r 0x04700000#32 = .lwRiMode ∧
    w 0x04700000#32 = .swRiMode v ∧ r 0x04700004#32 = .lwRiConfig ∧ w 0x04700004#32 = .swRiConfig v ∧
    r 0x04700008#32 = .lwRiCurrentLoad ∧ w 0x04700008#32 = .swRiCurrentLoad v ∧ r 0x0470000C#32 = .lwRiSelect ∧
    w 0x0470000C#32 = .swRiSelect v ∧ r 0x04700010#32 = .lwRiRefresh ∧ w 0x04700010#32 = .swRiRefresh v ∧
    r 0x04700014#32 = .lwRiLatency ∧ w 0x04700014#32 = .swRiLatency v ∧ r 0x04700018#32 = .lwRiRerror ∧
    w 0x04700018#32 = .swRiRerror v ∧ r 0x0470001C#32 = .lwRiWerror ∧ w 0x0470001C#32 = .swRiWerror v ∧
    (∀ j : BitVec 4, r (0x1FC007C0#32 + BitVec.ofNat 32 (4 * j.toNat)) = .lwPifRam j ∧
      w (0x1FC007C0#32 + BitVec.ofNat 32 (4 * j.toNat)) = .swPifRam j v) ∧
    (∀ off : BitVec 20, off.toNat % 4 = 0 →
      (0x10 ≤ off.toNat →
        r (0x04300000#32 + off.setWidth 32) = .lwMiReserved off ∧ w (0x04300000#32 + off.setWidth 32) = .swMiReserved off v) ∧
      (0x18 ≤ off.toNat →
        r (0x04500000#32 + off.setWidth 32) = .lwAiReserved off ∧ w (0x04500000#32 + off.setWidth 32) = .swAiReserved off v) ∧
      (off.toNat = 0x08 ∨ off.toNat = 0x0C ∨ off.toNat = 0x14 ∨ 0x1C ≤ off.toNat →
        r (0x04800000#32 + off.setWidth 32) = .lwSiReserved off ∧ w (0x04800000#32 + off.setWidth 32) = .swSiReserved off v) ∧
      (0x20 ≤ off.toNat →
        r (0x04100000#32 + off.setWidth 32) = .lwDpcReserved off ∧ w (0x04100000#32 + off.setWidth 32) = .swDpcReserved off v) ∧
      (0x20 ≤ off.toNat →
        r (0x04700000#32 + off.setWidth 32) = .lwRiReserved off ∧ w (0x04700000#32 + off.setWidth 32) = .swRiReserved off v)) ∧
    p 0x01000000#32 = .portQueryIrq ∧ p 0x03000000#32 = .portConstruct ∧ p 0x10000000#32 = .portRaiseSource .sp ∧
    p 0x10000003#32 = .portRaiseSource .vi ∧ p 0x10000004#32 = .portRaiseSource .pi ∧
    p 0x11000000#32 = .portClearSource .sp ∧ p 0x11000003#32 = .portClearSource .vi ∧
    p 0x11000004#32 = .portClearSource .pi ∧ p 0x20000000#32 = .portQueryCmdReady ∧
    p 0x21000000#32 = .portQueryFrameFinished ∧ p 0x22000000#32 = .portExportWords ∧
    p 0x23000000#32 = .portExportRowLengths ∧ p 0x24000000#32 = .portClearCommands ∧
    p 0x25000000#32 = .portClearFrameFinished ∧
    (∀ t : Nat, decode c (.port 0x02000000#32 t) = .portAdvance t) ∧
    (∀ a : Word, a.toNat < c.rdramBytes →
      decode c (.bus (.read a .w1)) = .lbMem a ∧
      (∀ x : BitVec 8, decode c (.bus (.write a (.b x))) = .sbMem a x) ∧
      (a.toNat % 2 = 0 → decode c (.bus (.read a .w2)) = .lhMem a ∧
        ∀ x : BitVec 16, decode c (.bus (.write a (.h x))) = .shMem a x) ∧
      (a.toNat % 4 = 0 → r a = .lwMem a ∧ w a = .swMem a v) ∧
      (a.toNat % 8 = 0 → decode c (.bus (.read a .w8)) = .ldMem a ∧
        ∀ x : BitVec 64, decode c (.bus (.write a (.d x))) = .sdMem a x)) ∧
    ∀ (a : Word) (n : Width) (x : Data), a.toNat % n.bytes = 0 → a.toNat % x.width.bytes = 0 →
      (0x05000000 ≤ a.toNat ∧ a.toNat ≤ 0x1FBFFFFF →
        decode c (.bus (.read a n)) = .extR a n ∧ decode c (.bus (.write a x)) = .extW a x) ∧
      (0x80000000 ≤ a.toNat →
        decode c (.bus (.read a n)) = .unmappedR a n ∧ decode c (.bus (.write a x)) = .unmappedW a x)) ∧
  let d := decode Config.default
  d (.bus (.write 0x04300000#32 (.w 0x800#32))) = .swMiMode 0x800#32 ∧
  d (.bus (.read 0x04300008#32 .w4)) = .lwMiIntr ∧
  d (.bus (.write 0x04500004#32 (.w 0x40#32))) = .swAiLen 0x40#32 ∧
  d (.bus (.read 0x0450000C#32 .w4)) = .lwAiStatus ∧
  d (.bus (.write 0x04800010#32 (.w 0x1FC007C0#32))) = .swSiPifAdWr64b 0x1FC007C0#32 ∧
  d (.bus (.read 0x04800018#32 .w4)) = .lwSiStatus ∧
  d (.bus (.write 0x04100004#32 (.w 0x1010#32))) = .swDpcEnd 0x1010#32 ∧
  d (.bus (.read 0x0410000C#32 .w4)) = .lwDpcStatus ∧
  d (.bus (.write 0x0470001C#32 (.w 5#32))) = .swRiWerror 5#32 ∧
  d (.bus (.read 0x1FC007FC#32 .w4)) = .lwPifRam 15#4 ∧
  d (.bus (.read 0x04800008#32 .w4)) = .lwSiReserved 8#20 ∧
  d (.bus (.read 0x00000102#32 .w2)) = .lhMem 0x102#32 ∧
  d (.bus (.read 0x04400010#32 .w4)) = .extR 0x04400010#32 .w4 ∧
  d (.bus (.write 0x90000000#32 (.w 1#32))) = .unmappedW 0x90000000#32 (.w 1#32) ∧
  d (.bus (.read 0x04300002#32 .w4)) = .refuseMisalignedBusAccess (.read 0x04300002#32 .w4) ∧
  d (.bus (.write 0x04300000#32 (.b 1#8))) = .refuseUnsupportedWidth (.write 0x04300000#32 (.b 1#8)) ∧
  d (.port 0x02000000#32 64) = .portAdvance 64 ∧
  d (.port 0x10000004#32 0) = .portRaiseSource .pi ∧
  d (.port 0x24000000#32 0) = .portClearCommands ∧
  d (.port 0x11000005#32 0) = .refuseUnknownPortOp 0x11000005#32

/-- R102, R113: every request decodes to a well-formed operation, so no decoded MEM operation lies outside the image. -/
def Obligations.DecodeWellFormed : Prop :=
  ∀ (c : Config) (r : Request), c.bases = Bases.default → WellFormed c (decode c r) = true

/-- Decode and encode agree: every well-formed operation is what its encoding decodes to, at every operand. -/
def Obligations.DecodeEncode : Prop :=
  ∀ (c : Config) (i : Instr), c.bases = Bases.default → WellFormed c i = true → decode c (encode c i) = i

/-- Each request has one meaning and each meaning one request: what a request decodes to encodes to that request. The
operand t belongs to ADVANCE only (R101), so it is 0 in every other port request. -/
def Obligations.EncodeDecode : Prop :=
  ∀ (c : Config) (r : Request), c.bases = Bases.default →
    (∀ word t, r = .port word t → word ≠ 0x02000000#32 → t = 0) → encode c (decode c r) = r

/-! ## The machine -/

/-- R82, R83: one step performs the oldest issued operation, on the state without it, unless it is held. With nothing
issued the machine stays as it is; before CONSTRUCT no other operation has a meaning (log entries 4, 6 and 7). -/
def Obligations.StepRunsDecoded : Prop :=
  (∀ (e : Issued) (rest : List Issued) (s : State), s.phase = .live → s.pending = e :: rest →
    held s (decode s.cfg e.request) = false → step s = exec (decode s.cfg e.request) { s with pending := rest }) ∧
  (∀ (w : Nat) (s : State), s.phase = .live →
    held s (decode s.cfg (tableRequest (BitVec.ofNat 32 w))) = false →
    step (s.withFetchWord 32 w) = exec (decode s.cfg (tableRequest (BitVec.ofNat 32 w))) s) ∧
  (∀ s : State, s.pending = [] → step s = .next s) ∧
  ∀ (e : Issued) (rest : List Issued) (s : State), s.phase = .absent → s.pending = e :: rest →
    held s (decode s.cfg e.request) = false →
    step s = if decode s.cfg e.request = .portConstruct then exec .portConstruct { s with pending := rest }
      else .fault .noBlock

/-- R300, R302: a CPU step with no bus operation is its time advance followed by one QUERY_IRQ, whose answer is the
aggregate of the state after the advance. -/
def Obligations.IdleCpuStep : Prop :=
  ∀ (t : Nat) (s : State), s.phase = .live → s.pending = [] →
    runCpuStep ⟨[], t⟩ s = .next { advance t s with answer := .flag (irqPending (advance t s)) }

/-- R313: every operation but a held DPC_END write is always enabled: on a block that exists, each well-formed operation
completes. -/
def Obligations.EveryOperationCompletes : Prop :=
  ∀ (i : Instr) (s : State), s.phase = .live → WellFormed s.cfg i = true → held s i = false →
    ∃ t, exec i s = .next t

/-- R6, R116: no operation changes a parameter. -/
def Obligations.ParametersFixed : Prop :=
  ∀ (i : Instr) (s t : State), exec i s = .next t → t.cfg = s.cfg

/-- R51 and the held fields of R24 .. R41: every step keeps the invariant. -/
def Obligations.StepKeepsInv : Prop :=
  ∀ s t : State, Inv s → step s = .next t → Inv t

/-- R341: the fresh block satisfies the invariant under every admitted value of the parameters, and so does reset. -/
def Obligations.FreshInv : Prop :=
  (∀ c : Config, ConfigOk c → Inv (State.fresh c)) ∧ Inv State.reset

/-- R51 items 1 to 5: in every state that operations can lead to, under every admitted value of the parameters; and there
every operation issued is a move of its agent (R306, R322; that a refused port word is one is log entry 17's choice). Boot
state placed before the first operation is log entry 19's. -/
def Obligations.ReachableStates : Prop :=
  ∀ (c : Config) (s : State), ConfigOk c → Reachable c s →
    s.ai.fifo.length ≤ 2 ∧ s.ai.ready = decide (s.ai.fifo.length < 2) ∧
    (s.ai.fifo = [] → s.ai.elapsed = 0) ∧
    (s.si.dmaBusy = true ↔ s.si.dir ≠ none) ∧ (s.si.dmaBusy = false → s.si.elapsed = 0) ∧
    (s.dpc.rows.map List.length).sum = s.dpc.rows.flatten.length ∧ (∀ r ∈ s.dpc.rows, r ≠ []) ∧
    s.dpc.cmdReady = decide (s.dpc.rows.flatten ≠ []) ∧
    ∀ e ∈ s.pending, mayIssue e.agent e.request = true

/-- R300, R306, R322: which requests are moves of which agent, and what a move of the host or of the external components
can change: the rows emptied, the two handshake flags, the cause bits of SP, VI and PI, and the refusal record; not the
engines, the calibration registers, memory, or the cause bits of SI, AI and DP. What is no move leaves the state as it is.
That a port word which R115 refuses is a move of both is the model's choice (log entry 17), and that its refusal is a next
state is deduced (log entry 12). -/
def Obligations.HostMoves : Prop :=
  (∀ (c : Config) (word : Word) (t : Nat),
    let refusedWord := decode c (.port word t) = .refuseUnknownPortOp word
    let sources := [0x10000000#32, 0x10000003#32, 0x10000004#32, 0x11000000#32, 0x11000003#32, 0x11000004#32]
    (mayIssue .steppingLoop (.port word t) = true ↔ word = 0x01000000#32 ∨ word = 0x02000000#32) ∧
    (mayIssue .external (.port word t) = true ↔ word ∈ sources ∨ refusedWord) ∧
    (mayIssue .host (.port word t) = true ↔ word ∈ sources ∨ refusedWord ∨
      word ∈ [0x03000000#32, 0x20000000#32, 0x21000000#32, 0x22000000#32, 0x23000000#32, 0x24000000#32, 0x25000000#32])) ∧
  (∀ (a : Agent) (op : BusOp), mayIssue a (.bus op) = true ↔ a = .steppingLoop) ∧
  (∀ (e : Issued) (s : State),
    s.issue e = if mayIssue e.agent e.request = true then { s with pending := s.pending ++ [e] } else s) ∧
  ∀ (e : Issued) (s t : State), s.phase = .live → e.agent ≠ .steppingLoop → mayIssue e.agent e.request = true →
    exec (decode s.cfg e.request) s = .next t →
      t = { s with
        mi := { s.mi with cause := t.mi.cause }
        dpc := { s.dpc with
          rows := t.dpc.rows, cmdReady := t.dpc.cmdReady, frameFinished := t.dpc.frameFinished }
        refused := t.refused
        answer := t.answer } ∧
      (t.dpc.rows = s.dpc.rows ∧ t.dpc.cmdReady = s.dpc.cmdReady ∨ t.dpc.rows = [] ∧ t.dpc.cmdReady = false) ∧
      (t.dpc.frameFinished = true → s.dpc.frameFinished = true) ∧
      ∀ k, k = 1 ∨ k = 2 ∨ k = 5 → t.mi.cause.getLsbD k = s.mi.cause.getLsbD k
end

