-- ==== Sys2Proof/Laws/Decode.lean ====
section
/-! SUPPORT. The laws of the address map and of the decoder under the bases of spec/20_memory.md R71: which owner an
address range has, what a register offset is, and what an access of an owner decodes to. -/

namespace Sys2Proof

open Machine

variable {c : Config}

/-- The two sizes of the image (R6). -/
theorem rdramBytes_cases (c : Config) : c.rdramBytes = 0x00400000 ∨ c.rdramBytes = 0x00800000 := by
  unfold Config.rdramBytes
  cases c.rdramSize
  · exact .inl rfl
  · exact .inr rfl

/-- A row of the map that does not hold the address is passed over. -/
theorem routeIn_skip {lo hi a : Nat} {o o' : Owner} {rs : List Region} (h : a < lo ∨ hi < a)
    (hr : routeIn rs a = o') : routeIn (⟨lo, hi, o⟩ :: rs) a = o' := by
  have : ¬ (lo ≤ a ∧ a ≤ hi) := by omega
  simpa [routeIn, Region.holds, this] using hr

/-- The first row that holds the address gives its owner. -/
theorem routeIn_hit {lo hi a : Nat} {o : Owner} {rs : List Region} (h : lo ≤ a ∧ a ≤ hi) :
    routeIn (⟨lo, hi, o⟩ :: rs) a = o := by
  simp [routeIn, Region.holds, h]

/-- R71 with the default bases, row by row. -/
theorem regions_default (h : c.bases = Bases.default) :
    regions c =
      [ ⟨0, c.rdramBytes - 1, .memoryImage⟩, ⟨c.rdramBytes, 0x03EFFFFF, .unmapped⟩,
        ⟨0x03F00000, 0x03FFFFFF, .external⟩, ⟨0x04000000, 0x040FFFFF, .external⟩, ⟨0x04100000, 0x041FFFFF, .dpc⟩,
        ⟨0x04200000, 0x042FFFFF, .external⟩, ⟨0x04300000, 0x043FFFFF, .mi⟩, ⟨0x04400000, 0x044FFFFF, .external⟩,
        ⟨0x04500000, 0x045FFFFF, .ai⟩, ⟨0x04600000, 0x046FFFFF, .external⟩, ⟨0x04700000, 0x047FFFFF, .ri⟩,
        ⟨0x04800000, 0x048FFFFF, .si⟩, ⟨0x04900000, 0x04FFFFFF, .unmapped⟩, ⟨0x05000000, 0x1FBFFFFF, .external⟩,
        ⟨0x1FC00000, 0x1FC007BF, .external⟩, ⟨0x1FC007C0, 0x1FC007FF, .pifRam⟩, ⟨0x1FC00800, 0x1FCFFFFF, .unmapped⟩,
        ⟨0x1FD00000, 0x7FFFFFFF, .external⟩, ⟨0x80000000, 0xFFFFFFFF, .unmapped⟩ ] := by
  rw [regions, h]
  rfl

/-- The memory image (R71). -/
theorem route_memory (h : c.bases = Bases.default) {a : Word} (h1 : a.toNat < c.rdramBytes) :
    route c a = .memoryImage := by
  rw [route, regions_default h]
  exact routeIn_hit (by omega)

/-- The hole above the memory image (R71). -/
theorem route_unmappedLow (h : c.bases = Bases.default) {a : Word} (h1 : c.rdramBytes ≤ a.toNat)
    (h2 : a.toNat ≤ 0x03EFFFFF) : route c a = .unmapped := by
  have hr := rdramBytes_cases c
  rw [route, regions_default h]
  exact routeIn_skip (by omega) (routeIn_hit ⟨h1, h2⟩)

theorem route_rdramRegisters (h : c.bases = Bases.default) {a : Word} (h1 : 0x03F00000 ≤ a.toNat)
    (h2 : a.toNat ≤ 0x03FFFFFF) : route c a = .external := by
  have hr := rdramBytes_cases c
  rw [route, regions_default h]
  repeat (first | exact routeIn_hit ⟨h1, h2⟩ | refine routeIn_skip (by omega) ?_)

theorem route_signalProcessor (h : c.bases = Bases.default) {a : Word} (h1 : 0x04000000 ≤ a.toNat)
    (h2 : a.toNat ≤ 0x040FFFFF) : route c a = .external := by
  have hr := rdramBytes_cases c
  rw [route, regions_default h]
  repeat (first | exact routeIn_hit ⟨h1, h2⟩ | refine routeIn_skip (by omega) ?_)

theorem route_dpc (h : c.bases = Bases.default) {a : Word} (h1 : 0x04100000 ≤ a.toNat)
    (h2 : a.toNat ≤ 0x041FFFFF) : route c a = .dpc := by
  have hr := rdramBytes_cases c
  rw [route, regions_default h]
  repeat (first | exact routeIn_hit ⟨h1, h2⟩ | refine routeIn_skip (by omega) ?_)

theorem route_span (h : c.bases = Bases.default) {a : Word} (h1 : 0x04200000 ≤ a.toNat)
    (h2 : a.toNat ≤ 0x042FFFFF) : route c a = .external := by
  have hr := rdramBytes_cases c
  rw [route, regions_default h]
  repeat (first | exact routeIn_hit ⟨h1, h2⟩ | refine routeIn_skip (by omega) ?_)

theorem route_mi (h : c.bases = Bases.default) {a : Word} (h1 : 0x04300000 ≤ a.toNat)
    (h2 : a.toNat ≤ 0x043FFFFF) : route c a = .mi := by
  have hr := rdramBytes_cases c
  rw [route, regions_default h]
  repeat (first | exact routeIn_hit ⟨h1, h2⟩ | refine routeIn_skip (by omega) ?_)

theorem route_video (h : c.bases = Bases.default) {a : Word} (h1 : 0x04400000 ≤ a.toNat)
    (h2 : a.toNat ≤ 0x044FFFFF) : route c a = .external := by
  have hr := rdramBytes_cases c
  rw [route, regions_default h]
  repeat (first | exact routeIn_hit ⟨h1, h2⟩ | refine routeIn_skip (by omega) ?_)

theorem route_ai (h : c.bases = Bases.default) {a : Word} (h1 : 0x04500000 ≤ a.toNat)
    (h2 : a.toNat ≤ 0x045FFFFF) : route c a = .ai := by
  have hr := rdramBytes_cases c
  rw [route, regions_default h]
  repeat (first | exact routeIn_hit ⟨h1, h2⟩ | refine routeIn_skip (by omega) ?_)

theorem route_cartridgeInterface (h : c.bases = Bases.default) {a : Word} (h1 : 0x04600000 ≤ a.toNat)
    (h2 : a.toNat ≤ 0x046FFFFF) : route c a = .external := by
  have hr := rdramBytes_cases c
  rw [route, regions_default h]
  repeat (first | exact routeIn_hit ⟨h1, h2⟩ | refine routeIn_skip (by omega) ?_)

theorem route_ri (h : c.bases = Bases.default) {a : Word} (h1 : 0x04700000 ≤ a.toNat)
    (h2 : a.toNat ≤ 0x047FFFFF) : route c a = .ri := by
  have hr := rdramBytes_cases c
  rw [route, regions_default h]
  repeat (first | exact routeIn_hit ⟨h1, h2⟩ | refine routeIn_skip (by omega) ?_)

theorem route_si (h : c.bases = Bases.default) {a : Word} (h1 : 0x04800000 ≤ a.toNat)
    (h2 : a.toNat ≤ 0x048FFFFF) : route c a = .si := by
  have hr := rdramBytes_cases c
  rw [route, regions_default h]
  repeat (first | exact routeIn_hit ⟨h1, h2⟩ | refine routeIn_skip (by omega) ?_)

theorem route_unmappedMiddle (h : c.bases = Bases.default) {a : Word} (h1 : 0x04900000 ≤ a.toNat)
    (h2 : a.toNat ≤ 0x04FFFFFF) : route c a = .unmapped := by
  have hr := rdramBytes_cases c
  rw [route, regions_default h]
  repeat (first | exact routeIn_hit ⟨h1, h2⟩ | refine routeIn_skip (by omega) ?_)

theorem route_cartridge (h : c.bases = Bases.default) {a : Word} (h1 : 0x05000000 ≤ a.toNat)
    (h2 : a.toNat ≤ 0x1FBFFFFF) : route c a = .external := by
  have hr := rdramBytes_cases c
  rw [route, regions_default h]
  repeat (first | exact routeIn_hit ⟨h1, h2⟩ | refine routeIn_skip (by omega) ?_)

theorem route_pifRom (h : c.bases = Bases.default) {a : Word} (h1 : 0x1FC00000 ≤ a.toNat)
    (h2 : a.toNat ≤ 0x1FC007BF) : route c a = .external := by
  have hr := rdramBytes_cases c
  rw [route, regions_default h]
  repeat (first | exact routeIn_hit ⟨h1, h2⟩ | refine routeIn_skip (by omega) ?_)

theorem route_pifRam (h : c.bases = Bases.default) {a : Word} (h1 : 0x1FC007C0 ≤ a.toNat)
    (h2 : a.toNat ≤ 0x1FC007FF) : route c a = .pifRam := by
  have hr := rdramBytes_cases c
  rw [route, regions_default h]
  repeat (first | exact routeIn_hit ⟨h1, h2⟩ | refine routeIn_skip (by omega) ?_)

theorem route_unmappedPif (h : c.bases = Bases.default) {a : Word} (h1 : 0x1FC00800 ≤ a.toNat)
    (h2 : a.toNat ≤ 0x1FCFFFFF) : route c a = .unmapped := by
  have hr := rdramBytes_cases c
  rw [route, regions_default h]
  repeat (first | exact routeIn_hit ⟨h1, h2⟩ | refine routeIn_skip (by omega) ?_)

theorem route_cartridgeHigh (h : c.bases = Bases.default) {a : Word} (h1 : 0x1FD00000 ≤ a.toNat)
    (h2 : a.toNat ≤ 0x7FFFFFFF) : route c a = .external := by
  have hr := rdramBytes_cases c
  rw [route, regions_default h]
  repeat (first | exact routeIn_hit ⟨h1, h2⟩ | refine routeIn_skip (by omega) ?_)

theorem route_unmappedHigh (h : c.bases = Bases.default) {a : Word} (h1 : 0x80000000 ≤ a.toNat)
    (h2 : a.toNat ≤ 0xFFFFFFFF) : route c a = .unmapped := by
  have hr := rdramBytes_cases c
  rw [route, regions_default h]
  repeat (first | exact routeIn_hit ⟨h1, h2⟩ | refine routeIn_skip (by omega) ?_)

/-- The block of a register access is the block of its address (R71, R73). -/
theorem toNat_base_add (base : Word) (off : BitVec 20) (hb : base.toNat + 0x100000 ≤ 2 ^ 32) :
    (base + off.setWidth 32).toNat = base.toNat + off.toNat := by
  have := off.isLt
  simp only [BitVec.toNat_add, BitVec.toNat_setWidth]
  omega

/-- The offset of an aligned address of a block is that offset (R73). -/
theorem registerOffset_base_add (base : Word) (off : BitVec 20) (h : off.toNat % 4 = 0) :
    registerOffset base (base + off.setWidth 32) = off := by
  have h0 : off.getLsbD 0 = false := by
    simp only [BitVec.getLsbD, Nat.testBit_zero, decide_eq_false_iff_not]
    omega
  have h1 : off.getLsbD 1 = false := by
    simp only [BitVec.getLsbD, Nat.testBit_succ, Nat.testBit_zero, decide_eq_false_iff_not]
    omega
  have hsub : base + off.setWidth 32 - base = off.setWidth 32 := by
    rw [BitVec.add_comm]; exact BitVec.add_sub_cancel _ _
  unfold registerOffset
  rw [hsub]
  ext i hi
  simp only [BitVec.getElem_setWidth, BitVec.getLsbD_and, BitVec.getLsbD_setWidth]
  have hm : ∀ k : Fin 20, 2 ≤ k.val → (0xFFFFFFFC#32).getLsbD k.val = true := by decide
  rcases Nat.lt_or_ge i 2 with h2 | h2
  · have : off.getLsbD i = false := by
      rcases (by omega : i = 0 ∨ i = 1) with rfl | rfl <;> assumption
    rw [this, ← BitVec.getLsbD_eq_getElem hi, this]
    simp
  · rw [hm ⟨i, hi⟩ h2, BitVec.getLsbD_eq_getElem hi]
    simp
    omega

/-- The word index of word j of PIF RAM (R91). -/
theorem pifIndex_base_add (base : Word) (j : BitVec 4) : pifIndex base (base + 4#32 * j.setWidth 32) = j := by
  have hsub : base + 4#32 * j.setWidth 32 - base = 4#32 * j.setWidth 32 := by
    rw [BitVec.add_comm]; exact BitVec.add_sub_cancel _ _
  have hall : ∀ j : BitVec 4, (4#32 * j.setWidth 32).extractLsb' 2 4 = j := by decide
  unfold pifIndex
  rw [hsub, hall]

/-- An aligned access decodes by the owner of its address (R102). -/
theorem decodeBus_of_aligned (c : Config) {op : BusOp} (h : aligned op.addr op.width = true) :
    decodeBus c op = decodeOwned c op (route c op.addr) := by
  rw [decodeBus, if_pos h]

/-- A misaligned access is refused, whatever its address (R158). -/
theorem decodeBus_of_misaligned (c : Config) {op : BusOp} (h : aligned op.addr op.width = false) :
    decodeBus c op = .refuseMisalignedBusAccess op := by
  simp [decodeBus, h]

/-- Every offset of a block lies in the block (R71, R73). -/
theorem route_block (h : c.bases = Bases.default) (off : BitVec 20) :
    route c (c.bases.mi + off.setWidth 32) = .mi ∧ route c (c.bases.ai + off.setWidth 32) = .ai ∧
      route c (c.bases.si + off.setWidth 32) = .si ∧ route c (c.bases.dpc + off.setWidth 32) = .dpc ∧
      route c (c.bases.ri + off.setWidth 32) = .ri := by
  have ho := off.isLt
  have hm := toNat_base_add 0x04300000#32 off (by decide)
  have ha := toNat_base_add 0x04500000#32 off (by decide)
  have hs := toNat_base_add 0x04800000#32 off (by decide)
  have hd := toNat_base_add 0x04100000#32 off (by decide)
  have hr := toNat_base_add 0x04700000#32 off (by decide)
  simp only [BitVec.toNat_ofNat] at hm ha hs hd hr
  rw [h]
  exact ⟨route_mi h (by simp only [Bases.default]; omega) (by simp only [Bases.default]; omega),
    route_ai h (by simp only [Bases.default]; omega) (by simp only [Bases.default]; omega),
    route_si h (by simp only [Bases.default]; omega) (by simp only [Bases.default]; omega),
    route_dpc h (by simp only [Bases.default]; omega) (by simp only [Bases.default]; omega),
    route_ri h (by simp only [Bases.default]; omega) (by simp only [Bases.default]; omega)⟩

/-- Word j of PIF RAM lies in PIF RAM (R91). -/
theorem route_pif (h : c.bases = Bases.default) (j : BitVec 4) :
    route c (c.bases.pifRam + 4#32 * j.setWidth 32) = .pifRam ∧
      aligned (c.bases.pifRam + 4#32 * j.setWidth 32) .w4 = true := by
  have hj : ∀ j : BitVec 4, (0x1FC007C0#32 + 4#32 * j.setWidth 32).toNat = 0x1FC007C0 + 4 * j.toNat := by decide
  have hlt := j.isLt
  have hr := rdramBytes_cases c
  have ha : (c.bases.pifRam + 4#32 * j.setWidth 32).toNat = 0x1FC007C0 + 4 * j.toNat := by
    rw [h]; exact hj j
  refine ⟨route_pifRam h (by omega) (by omega), ?_⟩
  simp only [aligned, Width.bytes, ha, beq_iff_eq]
  omega

/-- An aligned offset of a block is an aligned address. -/
theorem aligned_block (h : c.bases = Bases.default) (off : BitVec 20) (ho : off.toNat % 4 = 0) :
    aligned (c.bases.mi + off.setWidth 32) .w4 = true ∧ aligned (c.bases.ai + off.setWidth 32) .w4 = true ∧
      aligned (c.bases.si + off.setWidth 32) .w4 = true ∧ aligned (c.bases.dpc + off.setWidth 32) .w4 = true ∧
      aligned (c.bases.ri + off.setWidth 32) .w4 = true := by
  have hm := toNat_base_add 0x04300000#32 off (by decide)
  have ha := toNat_base_add 0x04500000#32 off (by decide)
  have hs := toNat_base_add 0x04800000#32 off (by decide)
  have hd := toNat_base_add 0x04100000#32 off (by decide)
  have hr := toNat_base_add 0x04700000#32 off (by decide)
  simp only [BitVec.toNat_ofNat] at hm ha hs hd hr
  rw [h]
  simp only [aligned, Width.bytes, Bases.default, beq_iff_eq]
  omega

/-- A 4-byte read of MI decodes to the read of its offset (R73, R102). -/
theorem decode_lw_mi (h : c.bases = Bases.default) (off : BitVec 20) (ho : off.toNat % 4 = 0) :
    decode c (readAt c.bases.mi (off.setWidth 32)) = readMi off := by
  have ha : aligned (BusOp.addr (.read (c.bases.mi + off.setWidth 32) .w4)) (BusOp.width (.read (c.bases.mi + off.setWidth 32) .w4)) = true :=
    (aligned_block h off ho).1
  simp only [decode, readAt]
  rw [decodeBus_of_aligned c ha]
  simp only [decodeOwned, BusOp.addr, (route_block h off).1, decodeRegister, registerOffset_base_add _ _ ho]

/-- A 4-byte write of MI decodes to the write of its offset. -/
theorem decode_sw_mi (h : c.bases = Bases.default) (off : BitVec 20) (v : Word) (ho : off.toNat % 4 = 0) :
    decode c (writeAt c.bases.mi (off.setWidth 32) v) = writeMi c off v := by
  have ha : aligned (BusOp.addr (.write (c.bases.mi + off.setWidth 32) (.w v))) (BusOp.width (.write (c.bases.mi + off.setWidth 32) (.w v))) = true :=
    (aligned_block h off ho).1
  simp only [decode, writeAt]
  rw [decodeBus_of_aligned c ha]
  simp only [decodeOwned, BusOp.addr, (route_block h off).1, decodeRegister, registerOffset_base_add _ _ ho]

/-- A 4-byte read of AI decodes to the read of its offset. -/
theorem decode_lw_ai (h : c.bases = Bases.default) (off : BitVec 20) (ho : off.toNat % 4 = 0) :
    decode c (readAt c.bases.ai (off.setWidth 32)) = readAi off := by
  have ha : aligned (BusOp.addr (.read (c.bases.ai + off.setWidth 32) .w4)) (BusOp.width (.read (c.bases.ai + off.setWidth 32) .w4)) = true :=
    (aligned_block h off ho).2.1
  simp only [decode, readAt]
  rw [decodeBus_of_aligned c ha]
  simp only [decodeOwned, BusOp.addr, (route_block h off).2.1, decodeRegister, registerOffset_base_add _ _ ho]

/-- A 4-byte write of AI decodes to the write of its offset. -/
theorem decode_sw_ai (h : c.bases = Bases.default) (off : BitVec 20) (v : Word) (ho : off.toNat % 4 = 0) :
    decode c (writeAt c.bases.ai (off.setWidth 32) v) = writeAi off v := by
  have ha : aligned (BusOp.addr (.write (c.bases.ai + off.setWidth 32) (.w v))) (BusOp.width (.write (c.bases.ai + off.setWidth 32) (.w v))) = true :=
    (aligned_block h off ho).2.1
  simp only [decode, writeAt]
  rw [decodeBus_of_aligned c ha]
  simp only [decodeOwned, BusOp.addr, (route_block h off).2.1, decodeRegister, registerOffset_base_add _ _ ho]

/-- A 4-byte read of SI decodes to the read of its offset. -/
theorem decode_lw_si (h : c.bases = Bases.default) (off : BitVec 20) (ho : off.toNat % 4 = 0) :
    decode c (readAt c.bases.si (off.setWidth 32)) = readSi off := by
  have ha : aligned (BusOp.addr (.read (c.bases.si + off.setWidth 32) .w4)) (BusOp.width (.read (c.bases.si + off.setWidth 32) .w4)) = true :=
    (aligned_block h off ho).2.2.1
  simp only [decode, readAt]
  rw [decodeBus_of_aligned c ha]
  simp only [decodeOwned, BusOp.addr, (route_block h off).2.2.1, decodeRegister, registerOffset_base_add _ _ ho]

/-- A 4-byte write of SI decodes to the write of its offset. -/
theorem decode_sw_si (h : c.bases = Bases.default) (off : BitVec 20) (v : Word) (ho : off.toNat % 4 = 0) :
    decode c (writeAt c.bases.si (off.setWidth 32) v) = writeSi off v := by
  have ha : aligned (BusOp.addr (.write (c.bases.si + off.setWidth 32) (.w v))) (BusOp.width (.write (c.bases.si + off.setWidth 32) (.w v))) = true :=
    (aligned_block h off ho).2.2.1
  simp only [decode, writeAt]
  rw [decodeBus_of_aligned c ha]
  simp only [decodeOwned, BusOp.addr, (route_block h off).2.2.1, decodeRegister, registerOffset_base_add _ _ ho]

/-- A 4-byte read of DPC decodes to the read of its offset. -/
theorem decode_lw_dpc (h : c.bases = Bases.default) (off : BitVec 20) (ho : off.toNat % 4 = 0) :
    decode c (readAt c.bases.dpc (off.setWidth 32)) = readDpc off := by
  have ha : aligned (BusOp.addr (.read (c.bases.dpc + off.setWidth 32) .w4)) (BusOp.width (.read (c.bases.dpc + off.setWidth 32) .w4)) = true :=
    (aligned_block h off ho).2.2.2.1
  simp only [decode, readAt]
  rw [decodeBus_of_aligned c ha]
  simp only [decodeOwned, BusOp.addr, (route_block h off).2.2.2.1, decodeRegister, registerOffset_base_add _ _ ho]

/-- A 4-byte write of DPC decodes to the write of its offset. -/
theorem decode_sw_dpc (h : c.bases = Bases.default) (off : BitVec 20) (v : Word) (ho : off.toNat % 4 = 0) :
    decode c (writeAt c.bases.dpc (off.setWidth 32) v) = writeDpc off v := by
  have ha : aligned (BusOp.addr (.write (c.bases.dpc + off.setWidth 32) (.w v))) (BusOp.width (.write (c.bases.dpc + off.setWidth 32) (.w v))) = true :=
    (aligned_block h off ho).2.2.2.1
  simp only [decode, writeAt]
  rw [decodeBus_of_aligned c ha]
  simp only [decodeOwned, BusOp.addr, (route_block h off).2.2.2.1, decodeRegister, registerOffset_base_add _ _ ho]

/-- A 4-byte read of RI decodes to the read of its offset. -/
theorem decode_lw_ri (h : c.bases = Bases.default) (off : BitVec 20) (ho : off.toNat % 4 = 0) :
    decode c (readAt c.bases.ri (off.setWidth 32)) = readRi off := by
  have ha : aligned (BusOp.addr (.read (c.bases.ri + off.setWidth 32) .w4)) (BusOp.width (.read (c.bases.ri + off.setWidth 32) .w4)) = true :=
    (aligned_block h off ho).2.2.2.2
  simp only [decode, readAt]
  rw [decodeBus_of_aligned c ha]
  simp only [decodeOwned, BusOp.addr, (route_block h off).2.2.2.2, decodeRegister, registerOffset_base_add _ _ ho]

/-- A 4-byte write of RI decodes to the write of its offset. -/
theorem decode_sw_ri (h : c.bases = Bases.default) (off : BitVec 20) (v : Word) (ho : off.toNat % 4 = 0) :
    decode c (writeAt c.bases.ri (off.setWidth 32) v) = writeRi off v := by
  have ha : aligned (BusOp.addr (.write (c.bases.ri + off.setWidth 32) (.w v))) (BusOp.width (.write (c.bases.ri + off.setWidth 32) (.w v))) = true :=
    (aligned_block h off ho).2.2.2.2
  simp only [decode, writeAt]
  rw [decodeBus_of_aligned c ha]
  simp only [decodeOwned, BusOp.addr, (route_block h off).2.2.2.2, decodeRegister, registerOffset_base_add _ _ ho]

/-- An access whose owner is known decodes by that owner (R102). -/
theorem decodeBus_of_owned {o : Owner} {op : BusOp} (h : owned c o op.addr op.width = true) :
    aligned op.addr op.width = true ∧ route c op.addr = o := by
  simpa [owned] using h

end Sys2Proof
end

