-- ==== Sys2Proof/Laws/Memory.lean ====
section
/-! SUPPORT. The laws of the memory image: a read after a write, and that every operation keeps the canonical form and
the image's bound. -/

namespace Sys2Proof

open Machine

/-- A lower bound of a canonical list may be lowered. -/
theorem Memory.sortedAbove_none {lo : Option Nat} {m : Memory} (h : Memory.sortedAbove lo m = true) :
    Memory.sortedAbove none m = true := by
  cases m with
  | nil => rfl
  | cons c m =>
    obtain ⟨k, x⟩ := c
    simp only [Memory.sortedAbove, Bool.and_eq_true] at h ⊢
    exact ⟨⟨trivial, h.1.2⟩, h.2⟩

/-- What a bound says of the first cell. -/
theorem Memory.sortedAbove_cons {lo : Option Nat} {k : Nat} {x : Byte} {m : Memory} :
    Memory.sortedAbove lo ((k, x) :: m) = true ↔
      (∀ l, lo = some l → l < k) ∧ x ≠ unlistedByte ∧ Memory.sortedAbove (some k) m = true := by
  cases lo <;> simp [Memory.sortedAbove, and_assoc]

/-- A bound of a canonical list may be lowered to a smaller one. -/
theorem Memory.sortedAbove_mono {l l' : Nat} {m : Memory} (hl : l' ≤ l)
    (h : Memory.sortedAbove (some l) m = true) : Memory.sortedAbove (some l') m = true := by
  cases m with
  | nil => rfl
  | cons c m =>
    obtain ⟨k, x⟩ := c
    rw [Memory.sortedAbove_cons] at h ⊢
    refine ⟨fun j hj => ?_, h.2⟩
    have := h.1 l rfl
    cases hj
    omega

/-- At or below its bound a canonical list has no cell. -/
theorem Memory.read_of_sortedAbove {l a : Nat} {m : Memory} (h : Memory.sortedAbove (some l) m = true) (ha : a ≤ l) :
    m.read a = unlistedByte := by
  cases m with
  | nil => rfl
  | cons c m =>
    obtain ⟨k, x⟩ := c
    have := (Memory.sortedAbove_cons.1 h).1 l rfl
    have h1 : a ≠ k := by omega
    have h2 : a < k := by omega
    simp [Memory.read, h1, h2]

/-- A byte written is the byte read. -/
theorem Memory.read_write_same {lo : Option Nat} {m : Memory} (h : Memory.sortedAbove lo m = true) (a : Nat)
    (b : Byte) : (m.write a b).read a = b := by
  induction m generalizing lo with
  | nil => by_cases hb : b = unlistedByte <;> simp [Memory.write, hb, Memory.read]
  | cons c m ih =>
    obtain ⟨k, x⟩ := c
    have hc := Memory.sortedAbove_cons.1 h
    by_cases hk : a = k
    · subst hk
      by_cases hb : b = unlistedByte
      · simp [Memory.write, hb, Memory.read_of_sortedAbove hc.2.2 (Nat.le_refl a)]
      · simp [Memory.write, hb, Memory.read]
    · by_cases hlt : a < k
      · by_cases hb : b = unlistedByte <;> simp [Memory.write, hk, hlt, hb, Memory.read]
      · simp [Memory.write, hk, hlt, Memory.read, ih hc.2.2]

/-- A write leaves every other byte alone. -/
theorem Memory.read_write_ne {lo : Option Nat} {m : Memory} (h : Memory.sortedAbove lo m = true) {a a' : Nat}
    (hne : a' ≠ a) (b : Byte) : (m.write a b).read a' = m.read a' := by
  induction m generalizing lo with
  | nil =>
    by_cases hb : b = unlistedByte
    · simp [Memory.write, hb]
    · simp [Memory.write, hb, Memory.read, hne]
  | cons c m ih =>
    obtain ⟨k, x⟩ := c
    have hc := Memory.sortedAbove_cons.1 h
    by_cases hk : a = k
    · subst hk
      by_cases hb : b = unlistedByte
      · by_cases hlt : a' < a
        · simp [Memory.write, hb, Memory.read, hne, hlt, Memory.read_of_sortedAbove hc.2.2 (Nat.le_of_lt hlt)]
        · simp [Memory.write, hb, Memory.read, hne, hlt]
      · simp [Memory.write, hb, Memory.read, hne]
    · by_cases hlt : a < k
      · by_cases hb : b = unlistedByte
        · simp [Memory.write, hk, hlt, hb]
        · by_cases h2 : a' < a
          · have h3 : a' ≠ k := by omega
            have h4 : a' < k := by omega
            simp [Memory.write, hk, hlt, hb, Memory.read, hne, h2, h3, h4]
          · simp [Memory.write, hk, hlt, hb, Memory.read, hne, h2]
      · by_cases h2 : a' = k
        · simp [Memory.write, hk, hlt, Memory.read, h2]
        · by_cases h3 : a' < k <;> simp [Memory.write, hk, hlt, Memory.read, h2, h3, ih hc.2.2]

/-- A write keeps the canonical form above any bound below its address. -/
theorem Memory.sortedAbove_write {lo : Option Nat} {m : Memory} (h : Memory.sortedAbove lo m = true) (a : Nat)
    (ha : ∀ l, lo = some l → l < a) (b : Byte) : Memory.sortedAbove lo (m.write a b) = true := by
  induction m generalizing lo with
  | nil =>
    by_cases hb : b = unlistedByte
    · simp [Memory.write, hb, Memory.sortedAbove]
    · simp only [Memory.write, hb, if_false]
      exact Memory.sortedAbove_cons.2 ⟨ha, hb, rfl⟩
  | cons c m ih =>
    obtain ⟨k, x⟩ := c
    have hc := Memory.sortedAbove_cons.1 h
    by_cases hk : a = k
    · subst hk
      by_cases hb : b = unlistedByte
      · simp only [Memory.write, hb, if_true]
        cases lo with
        | none => exact Memory.sortedAbove_none hc.2.2
        | some l => exact Memory.sortedAbove_mono (Nat.le_of_lt (ha l rfl)) hc.2.2
      · simp only [Memory.write, hb, if_true, if_false]
        exact Memory.sortedAbove_cons.2 ⟨ha, hb, hc.2.2⟩
    · by_cases hlt : a < k
      · by_cases hb : b = unlistedByte
        · simpa [Memory.write, hk, hlt, hb] using h
        · simp only [Memory.write, hk, hlt, hb, if_true, if_false]
          exact Memory.sortedAbove_cons.2
            ⟨ha, hb, Memory.sortedAbove_cons.2 ⟨fun l hl => by cases hl; exact hlt, hc.2⟩⟩
      · simp only [Memory.write, hk, hlt, if_false]
        exact Memory.sortedAbove_cons.2
          ⟨hc.1, hc.2.1, ih hc.2.2 (fun l hl => by cases hl; omega)⟩

/-- A write keeps the canonical form. -/
theorem Memory.wf_write {m : Memory} (h : m.wf = true) (a : Nat) (b : Byte) : (m.write a b).wf = true :=
  Memory.sortedAbove_write h a (fun _ hl => by cases hl) b

/-- What the bound says of the first cell. -/
theorem Memory.within_cons {n k : Nat} {x : Byte} {m : Memory} :
    Memory.within n ((k, x) :: m) = true ↔ k < n ∧ m.within n = true := by
  simp [Memory.within]

/-- A write inside the image keeps every cell inside it. -/
theorem Memory.within_write {m : Memory} {n a : Nat} (h : m.within n = true) (ha : a < n) (b : Byte) :
    (m.write a b).within n = true := by
  induction m with
  | nil => by_cases hb : b = unlistedByte <;> simp [Memory.write, hb, Memory.within, ha]
  | cons c m ih =>
    obtain ⟨k, x⟩ := c
    have h' := Memory.within_cons.1 h
    unfold Memory.write
    split
    · split
      · exact h'.2
      · exact Memory.within_cons.2 ⟨ha, h'.2⟩
    · split
      · split
        · exact h
        · exact Memory.within_cons.2 ⟨ha, h⟩
      · exact Memory.within_cons.2 ⟨h'.1, ih h'.2⟩

/-- Bytes written keep the canonical form. -/
theorem Memory.wf_writeBytes (bs : List Byte) {m : Memory} (h : m.wf = true) (a : Nat) :
    (m.writeBytes a bs).wf = true := by
  induction bs generalizing m a with
  | nil => exact h
  | cons b bs ih => exact ih (Memory.wf_write h a b) (a + 1)

/-- Bytes written inside the image keep every cell inside it. -/
theorem Memory.within_writeBytes (bs : List Byte) {m : Memory} {n a : Nat} (h : m.within n = true)
    (ha : a + bs.length ≤ n) : (m.writeBytes a bs).within n = true := by
  induction bs generalizing m a with
  | nil => exact h
  | cons b bs ih =>
    simp only [List.length_cons] at ha
    exact ih (Memory.within_write h (by omega) b) (by omega)

/-- Bytes written leave the bytes outside them alone. -/
theorem Memory.read_writeBytes_outside (bs : List Byte) {m : Memory} (h : m.wf = true) {a a' : Nat}
    (ha : a' < a ∨ a + bs.length ≤ a') : (m.writeBytes a bs).read a' = m.read a' := by
  induction bs generalizing m a with
  | nil => rfl
  | cons b bs ih =>
    simp only [List.length_cons] at ha
    rw [Memory.writeBytes, ih (Memory.wf_write h a b) (by omega), Memory.read_write_ne h (by omega)]

/-- Bytes written are the bytes read. -/
theorem Memory.read_writeBytes_inside (bs : List Byte) {m : Memory} (h : m.wf = true) (a i : Nat)
    (hi : i < bs.length) : (m.writeBytes a bs).read (a + i) = bs[i] := by
  induction bs generalizing m a i with
  | nil => simp at hi
  | cons b bs ih =>
    rw [Memory.writeBytes]
    cases i with
    | zero =>
      rw [Memory.read_writeBytes_outside bs (Memory.wf_write h a b) (by omega)]
      simpa using Memory.read_write_same h a b
    | succ i =>
      have hi' : i < bs.length := by simpa using hi
      have := ih (Memory.wf_write h a b) (a + 1) i hi'
      simpa [Nat.add_assoc, Nat.add_comm 1 i] using this

/-- A store keeps the canonical form. -/
theorem Memory.wf_store {m : Memory} (h : m.wf = true) (a : Nat) (d : Data) : (m.store a d).wf = true :=
  Memory.wf_writeBytes d.bytes h a

/-- The bytes of an access are as many as its width says. -/
@[simp] theorem Data.length_bytes (d : Data) : d.bytes.length = d.width.bytes := by cases d <;> rfl

/-- A store inside the image keeps every cell inside it. -/
theorem Memory.within_store {m : Memory} {n a : Nat} (h : m.within n = true) (d : Data)
    (ha : a + d.width.bytes ≤ n) : (m.store a d).within n = true :=
  Memory.within_writeBytes d.bytes h (by simpa using ha)

namespace Machine

/-- A DMA write keeps the canonical form and the bound of the image. -/
theorem dmaWrite_keeps {size : Nat} {m : Memory} (h : m.wf = true ∧ m.within size = true) (a : Nat) (b : Byte) :
    (dmaWrite size m a b).wf = true ∧ (dmaWrite size m a b).within size = true := by
  unfold dmaWrite
  split
  · next ha => exact ⟨Memory.wf_write h.1 a b, Memory.within_write h.2 ha b⟩
  · exact h

/-- DMA writes keep the canonical form and the bound of the image. -/
theorem dmaWriteBytes_keeps {size : Nat} (bs : List Byte) {m : Memory} (h : m.wf = true ∧ m.within size = true)
    (a : Nat) :
    (dmaWriteBytes size m a bs).wf = true ∧ (dmaWriteBytes size m a bs).within size = true := by
  induction bs generalizing m a with
  | nil => exact h
  | cons b bs ih => exact ih (dmaWrite_keeps h a b) (a + 1)

/-- DMA writes leave the bytes outside them alone. -/
theorem read_dmaWriteBytes_outside {size : Nat} (bs : List Byte) {m : Memory} (h : m.wf = true) {a a' : Nat}
    (ha : a' < a ∨ a + bs.length ≤ a') : (dmaWriteBytes size m a bs).read a' = m.read a' := by
  induction bs generalizing m a with
  | nil => rfl
  | cons b bs ih =>
    simp only [List.length_cons] at ha
    have hstep : (dmaWrite size m a b).wf = true ∧ (dmaWrite size m a b).read a' = m.read a' := by
      unfold dmaWrite
      split
      · exact ⟨Memory.wf_write h a b, Memory.read_write_ne h (by omega) b⟩
      · exact ⟨h, rfl⟩
    rw [dmaWriteBytes, ih hstep.1 (by omega), hstep.2]

end Machine

end Sys2Proof
end

