-- ==== Sys2Proof/Laws/State.lean ====
section
/-! SUPPORT. One lemma for each field after each update of the state, true by rfl, so that no proof unfolds a record
update. -/

namespace Sys2Proof.Machine

open Sys2Proof

variable (s : State)

@[simp] theorem State.withMi_cfg (x : InterruptRegister) : (s.withMi x).cfg = s.cfg := rfl
@[simp] theorem State.withMi_mi (x : InterruptRegister) : (s.withMi x).mi = x := rfl
@[simp] theorem State.withMi_ai (x : InterruptRegister) : (s.withMi x).ai = s.ai := rfl
@[simp] theorem State.withMi_si (x : InterruptRegister) : (s.withMi x).si = s.si := rfl
@[simp] theorem State.withMi_dpc (x : InterruptRegister) : (s.withMi x).dpc = s.dpc := rfl
@[simp] theorem State.withMi_ri (x : InterruptRegister) : (s.withMi x).ri = s.ri := rfl
@[simp] theorem State.withMi_mem (x : InterruptRegister) : (s.withMi x).mem = s.mem := rfl
@[simp] theorem State.withMi_refused (x : InterruptRegister) : (s.withMi x).refused = s.refused := rfl
@[simp] theorem State.withMi_phase (x : InterruptRegister) : (s.withMi x).phase = s.phase := rfl
@[simp] theorem State.withMi_allocOk (x : InterruptRegister) : (s.withMi x).allocOk = s.allocOk := rfl
@[simp] theorem State.withMi_answer (x : InterruptRegister) : (s.withMi x).answer = s.answer := rfl
@[simp] theorem State.withMi_events (x : InterruptRegister) : (s.withMi x).events = s.events := rfl
@[simp] theorem State.withMi_draws (x : InterruptRegister) : (s.withMi x).draws = s.draws := rfl
@[simp] theorem State.withMi_pending (x : InterruptRegister) : (s.withMi x).pending = s.pending := rfl

@[simp] theorem State.withAi_cfg (x : AudioEngine) : (s.withAi x).cfg = s.cfg := rfl
@[simp] theorem State.withAi_mi (x : AudioEngine) : (s.withAi x).mi = s.mi := rfl
@[simp] theorem State.withAi_ai (x : AudioEngine) : (s.withAi x).ai = x := rfl
@[simp] theorem State.withAi_si (x : AudioEngine) : (s.withAi x).si = s.si := rfl
@[simp] theorem State.withAi_dpc (x : AudioEngine) : (s.withAi x).dpc = s.dpc := rfl
@[simp] theorem State.withAi_ri (x : AudioEngine) : (s.withAi x).ri = s.ri := rfl
@[simp] theorem State.withAi_mem (x : AudioEngine) : (s.withAi x).mem = s.mem := rfl
@[simp] theorem State.withAi_refused (x : AudioEngine) : (s.withAi x).refused = s.refused := rfl
@[simp] theorem State.withAi_phase (x : AudioEngine) : (s.withAi x).phase = s.phase := rfl
@[simp] theorem State.withAi_allocOk (x : AudioEngine) : (s.withAi x).allocOk = s.allocOk := rfl
@[simp] theorem State.withAi_answer (x : AudioEngine) : (s.withAi x).answer = s.answer := rfl
@[simp] theorem State.withAi_events (x : AudioEngine) : (s.withAi x).events = s.events := rfl
@[simp] theorem State.withAi_draws (x : AudioEngine) : (s.withAi x).draws = s.draws := rfl
@[simp] theorem State.withAi_pending (x : AudioEngine) : (s.withAi x).pending = s.pending := rfl

@[simp] theorem State.withSi_cfg (x : SerialEngine) : (s.withSi x).cfg = s.cfg := rfl
@[simp] theorem State.withSi_mi (x : SerialEngine) : (s.withSi x).mi = s.mi := rfl
@[simp] theorem State.withSi_ai (x : SerialEngine) : (s.withSi x).ai = s.ai := rfl
@[simp] theorem State.withSi_si (x : SerialEngine) : (s.withSi x).si = x := rfl
@[simp] theorem State.withSi_dpc (x : SerialEngine) : (s.withSi x).dpc = s.dpc := rfl
@[simp] theorem State.withSi_ri (x : SerialEngine) : (s.withSi x).ri = s.ri := rfl
@[simp] theorem State.withSi_mem (x : SerialEngine) : (s.withSi x).mem = s.mem := rfl
@[simp] theorem State.withSi_refused (x : SerialEngine) : (s.withSi x).refused = s.refused := rfl
@[simp] theorem State.withSi_phase (x : SerialEngine) : (s.withSi x).phase = s.phase := rfl
@[simp] theorem State.withSi_allocOk (x : SerialEngine) : (s.withSi x).allocOk = s.allocOk := rfl
@[simp] theorem State.withSi_answer (x : SerialEngine) : (s.withSi x).answer = s.answer := rfl
@[simp] theorem State.withSi_events (x : SerialEngine) : (s.withSi x).events = s.events := rfl
@[simp] theorem State.withSi_draws (x : SerialEngine) : (s.withSi x).draws = s.draws := rfl
@[simp] theorem State.withSi_pending (x : SerialEngine) : (s.withSi x).pending = s.pending := rfl

@[simp] theorem State.withDpc_cfg (x : DisplayInterface) : (s.withDpc x).cfg = s.cfg := rfl
@[simp] theorem State.withDpc_mi (x : DisplayInterface) : (s.withDpc x).mi = s.mi := rfl
@[simp] theorem State.withDpc_ai (x : DisplayInterface) : (s.withDpc x).ai = s.ai := rfl
@[simp] theorem State.withDpc_si (x : DisplayInterface) : (s.withDpc x).si = s.si := rfl
@[simp] theorem State.withDpc_dpc (x : DisplayInterface) : (s.withDpc x).dpc = x := rfl
@[simp] theorem State.withDpc_ri (x : DisplayInterface) : (s.withDpc x).ri = s.ri := rfl
@[simp] theorem State.withDpc_mem (x : DisplayInterface) : (s.withDpc x).mem = s.mem := rfl
@[simp] theorem State.withDpc_refused (x : DisplayInterface) : (s.withDpc x).refused = s.refused := rfl
@[simp] theorem State.withDpc_phase (x : DisplayInterface) : (s.withDpc x).phase = s.phase := rfl
@[simp] theorem State.withDpc_allocOk (x : DisplayInterface) : (s.withDpc x).allocOk = s.allocOk := rfl
@[simp] theorem State.withDpc_answer (x : DisplayInterface) : (s.withDpc x).answer = s.answer := rfl
@[simp] theorem State.withDpc_events (x : DisplayInterface) : (s.withDpc x).events = s.events := rfl
@[simp] theorem State.withDpc_draws (x : DisplayInterface) : (s.withDpc x).draws = s.draws := rfl
@[simp] theorem State.withDpc_pending (x : DisplayInterface) : (s.withDpc x).pending = s.pending := rfl

@[simp] theorem State.withRi_cfg (x : CalibrationBlock) : (s.withRi x).cfg = s.cfg := rfl
@[simp] theorem State.withRi_mi (x : CalibrationBlock) : (s.withRi x).mi = s.mi := rfl
@[simp] theorem State.withRi_ai (x : CalibrationBlock) : (s.withRi x).ai = s.ai := rfl
@[simp] theorem State.withRi_si (x : CalibrationBlock) : (s.withRi x).si = s.si := rfl
@[simp] theorem State.withRi_dpc (x : CalibrationBlock) : (s.withRi x).dpc = s.dpc := rfl
@[simp] theorem State.withRi_ri (x : CalibrationBlock) : (s.withRi x).ri = x := rfl
@[simp] theorem State.withRi_mem (x : CalibrationBlock) : (s.withRi x).mem = s.mem := rfl
@[simp] theorem State.withRi_refused (x : CalibrationBlock) : (s.withRi x).refused = s.refused := rfl
@[simp] theorem State.withRi_phase (x : CalibrationBlock) : (s.withRi x).phase = s.phase := rfl
@[simp] theorem State.withRi_allocOk (x : CalibrationBlock) : (s.withRi x).allocOk = s.allocOk := rfl
@[simp] theorem State.withRi_answer (x : CalibrationBlock) : (s.withRi x).answer = s.answer := rfl
@[simp] theorem State.withRi_events (x : CalibrationBlock) : (s.withRi x).events = s.events := rfl
@[simp] theorem State.withRi_draws (x : CalibrationBlock) : (s.withRi x).draws = s.draws := rfl
@[simp] theorem State.withRi_pending (x : CalibrationBlock) : (s.withRi x).pending = s.pending := rfl

@[simp] theorem State.withMem_cfg (x : Memory) : (s.withMem x).cfg = s.cfg := rfl
@[simp] theorem State.withMem_mi (x : Memory) : (s.withMem x).mi = s.mi := rfl
@[simp] theorem State.withMem_ai (x : Memory) : (s.withMem x).ai = s.ai := rfl
@[simp] theorem State.withMem_si (x : Memory) : (s.withMem x).si = s.si := rfl
@[simp] theorem State.withMem_dpc (x : Memory) : (s.withMem x).dpc = s.dpc := rfl
@[simp] theorem State.withMem_ri (x : Memory) : (s.withMem x).ri = s.ri := rfl
@[simp] theorem State.withMem_mem (x : Memory) : (s.withMem x).mem = x := rfl
@[simp] theorem State.withMem_refused (x : Memory) : (s.withMem x).refused = s.refused := rfl
@[simp] theorem State.withMem_phase (x : Memory) : (s.withMem x).phase = s.phase := rfl
@[simp] theorem State.withMem_allocOk (x : Memory) : (s.withMem x).allocOk = s.allocOk := rfl
@[simp] theorem State.withMem_answer (x : Memory) : (s.withMem x).answer = s.answer := rfl
@[simp] theorem State.withMem_events (x : Memory) : (s.withMem x).events = s.events := rfl
@[simp] theorem State.withMem_draws (x : Memory) : (s.withMem x).draws = s.draws := rfl
@[simp] theorem State.withMem_pending (x : Memory) : (s.withMem x).pending = s.pending := rfl

@[simp] theorem State.withRefused_cfg (x : Option RefuseReason) : (s.withRefused x).cfg = s.cfg := rfl
@[simp] theorem State.withRefused_mi (x : Option RefuseReason) : (s.withRefused x).mi = s.mi := rfl
@[simp] theorem State.withRefused_ai (x : Option RefuseReason) : (s.withRefused x).ai = s.ai := rfl
@[simp] theorem State.withRefused_si (x : Option RefuseReason) : (s.withRefused x).si = s.si := rfl
@[simp] theorem State.withRefused_dpc (x : Option RefuseReason) : (s.withRefused x).dpc = s.dpc := rfl
@[simp] theorem State.withRefused_ri (x : Option RefuseReason) : (s.withRefused x).ri = s.ri := rfl
@[simp] theorem State.withRefused_mem (x : Option RefuseReason) : (s.withRefused x).mem = s.mem := rfl
@[simp] theorem State.withRefused_refused (x : Option RefuseReason) : (s.withRefused x).refused = x := rfl
@[simp] theorem State.withRefused_phase (x : Option RefuseReason) : (s.withRefused x).phase = s.phase := rfl
@[simp] theorem State.withRefused_allocOk (x : Option RefuseReason) : (s.withRefused x).allocOk = s.allocOk := rfl
@[simp] theorem State.withRefused_answer (x : Option RefuseReason) : (s.withRefused x).answer = s.answer := rfl
@[simp] theorem State.withRefused_events (x : Option RefuseReason) : (s.withRefused x).events = s.events := rfl
@[simp] theorem State.withRefused_draws (x : Option RefuseReason) : (s.withRefused x).draws = s.draws := rfl
@[simp] theorem State.withRefused_pending (x : Option RefuseReason) : (s.withRefused x).pending = s.pending := rfl

@[simp] theorem State.withAnswer_cfg (x : Answer) : (s.withAnswer x).cfg = s.cfg := rfl
@[simp] theorem State.withAnswer_mi (x : Answer) : (s.withAnswer x).mi = s.mi := rfl
@[simp] theorem State.withAnswer_ai (x : Answer) : (s.withAnswer x).ai = s.ai := rfl
@[simp] theorem State.withAnswer_si (x : Answer) : (s.withAnswer x).si = s.si := rfl
@[simp] theorem State.withAnswer_dpc (x : Answer) : (s.withAnswer x).dpc = s.dpc := rfl
@[simp] theorem State.withAnswer_ri (x : Answer) : (s.withAnswer x).ri = s.ri := rfl
@[simp] theorem State.withAnswer_mem (x : Answer) : (s.withAnswer x).mem = s.mem := rfl
@[simp] theorem State.withAnswer_refused (x : Answer) : (s.withAnswer x).refused = s.refused := rfl
@[simp] theorem State.withAnswer_phase (x : Answer) : (s.withAnswer x).phase = s.phase := rfl
@[simp] theorem State.withAnswer_allocOk (x : Answer) : (s.withAnswer x).allocOk = s.allocOk := rfl
@[simp] theorem State.withAnswer_answer (x : Answer) : (s.withAnswer x).answer = x := rfl
@[simp] theorem State.withAnswer_events (x : Answer) : (s.withAnswer x).events = s.events := rfl
@[simp] theorem State.withAnswer_draws (x : Answer) : (s.withAnswer x).draws = s.draws := rfl
@[simp] theorem State.withAnswer_pending (x : Answer) : (s.withAnswer x).pending = s.pending := rfl

@[simp] theorem State.withEvents_cfg (x : List Event) : (s.withEvents x).cfg = s.cfg := rfl
@[simp] theorem State.withEvents_mi (x : List Event) : (s.withEvents x).mi = s.mi := rfl
@[simp] theorem State.withEvents_ai (x : List Event) : (s.withEvents x).ai = s.ai := rfl
@[simp] theorem State.withEvents_si (x : List Event) : (s.withEvents x).si = s.si := rfl
@[simp] theorem State.withEvents_dpc (x : List Event) : (s.withEvents x).dpc = s.dpc := rfl
@[simp] theorem State.withEvents_ri (x : List Event) : (s.withEvents x).ri = s.ri := rfl
@[simp] theorem State.withEvents_mem (x : List Event) : (s.withEvents x).mem = s.mem := rfl
@[simp] theorem State.withEvents_refused (x : List Event) : (s.withEvents x).refused = s.refused := rfl
@[simp] theorem State.withEvents_phase (x : List Event) : (s.withEvents x).phase = s.phase := rfl
@[simp] theorem State.withEvents_allocOk (x : List Event) : (s.withEvents x).allocOk = s.allocOk := rfl
@[simp] theorem State.withEvents_answer (x : List Event) : (s.withEvents x).answer = s.answer := rfl
@[simp] theorem State.withEvents_events (x : List Event) : (s.withEvents x).events = x := rfl
@[simp] theorem State.withEvents_draws (x : List Event) : (s.withEvents x).draws = s.draws := rfl
@[simp] theorem State.withEvents_pending (x : List Event) : (s.withEvents x).pending = s.pending := rfl

@[simp] theorem State.withDraws_cfg (x : Nat) : (s.withDraws x).cfg = s.cfg := rfl
@[simp] theorem State.withDraws_mi (x : Nat) : (s.withDraws x).mi = s.mi := rfl
@[simp] theorem State.withDraws_ai (x : Nat) : (s.withDraws x).ai = s.ai := rfl
@[simp] theorem State.withDraws_si (x : Nat) : (s.withDraws x).si = s.si := rfl
@[simp] theorem State.withDraws_dpc (x : Nat) : (s.withDraws x).dpc = s.dpc := rfl
@[simp] theorem State.withDraws_ri (x : Nat) : (s.withDraws x).ri = s.ri := rfl
@[simp] theorem State.withDraws_mem (x : Nat) : (s.withDraws x).mem = s.mem := rfl
@[simp] theorem State.withDraws_refused (x : Nat) : (s.withDraws x).refused = s.refused := rfl
@[simp] theorem State.withDraws_phase (x : Nat) : (s.withDraws x).phase = s.phase := rfl
@[simp] theorem State.withDraws_allocOk (x : Nat) : (s.withDraws x).allocOk = s.allocOk := rfl
@[simp] theorem State.withDraws_answer (x : Nat) : (s.withDraws x).answer = s.answer := rfl
@[simp] theorem State.withDraws_events (x : Nat) : (s.withDraws x).events = s.events := rfl
@[simp] theorem State.withDraws_draws (x : Nat) : (s.withDraws x).draws = x := rfl
@[simp] theorem State.withDraws_pending (x : Nat) : (s.withDraws x).pending = s.pending := rfl

@[simp] theorem State.withPending_cfg (x : List Issued) : (s.withPending x).cfg = s.cfg := rfl
@[simp] theorem State.withPending_mi (x : List Issued) : (s.withPending x).mi = s.mi := rfl
@[simp] theorem State.withPending_ai (x : List Issued) : (s.withPending x).ai = s.ai := rfl
@[simp] theorem State.withPending_si (x : List Issued) : (s.withPending x).si = s.si := rfl
@[simp] theorem State.withPending_dpc (x : List Issued) : (s.withPending x).dpc = s.dpc := rfl
@[simp] theorem State.withPending_ri (x : List Issued) : (s.withPending x).ri = s.ri := rfl
@[simp] theorem State.withPending_mem (x : List Issued) : (s.withPending x).mem = s.mem := rfl
@[simp] theorem State.withPending_refused (x : List Issued) : (s.withPending x).refused = s.refused := rfl
@[simp] theorem State.withPending_phase (x : List Issued) : (s.withPending x).phase = s.phase := rfl
@[simp] theorem State.withPending_allocOk (x : List Issued) : (s.withPending x).allocOk = s.allocOk := rfl
@[simp] theorem State.withPending_answer (x : List Issued) : (s.withPending x).answer = s.answer := rfl
@[simp] theorem State.withPending_events (x : List Issued) : (s.withPending x).events = s.events := rfl
@[simp] theorem State.withPending_draws (x : List Issued) : (s.withPending x).draws = s.draws := rfl
@[simp] theorem State.withPending_pending (x : List Issued) : (s.withPending x).pending = x := rfl

end Sys2Proof.Machine
end

