-- ==== Sys2Proof/Laws/Ops.lean ====
section
/-! SUPPORT. One lemma or a few for each shared operation, which say everything it can do, so that a proof about an
instruction cites them and unfolds nothing. -/

namespace Sys2Proof.Machine

open Sys2Proof

/-! ## Outcomes -/

theorem done_eq (s : State) : done s = .next { s with answer := .nothing } := rfl

theorem returning_eq (a : Answer) (s : State) : returning a s = .next { s with answer := a } := rfl

theorem returningWord_eq (v : Word) (s : State) : returningWord v s = .next { s with answer := .data (.w v) } := rfl

theorem refuse_eq (r : RefuseReason) (s : State) :
    refuse r s = .next { s with refused := s.refused.or (some r), answer := .refused r } := rfl

theorem loadImage_inside {a : Word} {n : Width} {s : State} (h : a.toNat + n.bytes ≤ s.cfg.rdramBytes) :
    loadImage a n s = .next { s with answer := .data (s.mem.load a.toNat n) } := by
  unfold loadImage
  rw [if_pos h]
  rfl

theorem loadImage_outside {a : Word} {n : Width} {s : State} (h : s.cfg.rdramBytes < a.toNat + n.bytes) :
    loadImage a n s = .fault .outsideImage := by
  unfold loadImage
  rw [if_neg (by omega)]

theorem storeImage_inside {a : Word} {d : Data} {s : State} (h : a.toNat + d.width.bytes ≤ s.cfg.rdramBytes) :
    storeImage a d s = .next { s with mem := s.mem.store a.toNat d, answer := .nothing } := by
  unfold storeImage
  rw [if_pos h]
  rfl

theorem storeImage_outside {a : Word} {d : Data} {s : State} (h : s.cfg.rdramBytes < a.toNat + d.width.bytes) :
    storeImage a d s = .fault .outsideImage := by
  unfold storeImage
  rw [if_neg (by omega)]

/-! ## Cause bits -/

theorem setCause_eq (k : Source) (s : State) :
    setCause k s = { s with mi := { s.mi with cause := s.mi.cause ||| k.flag } } := rfl

theorem clearCause_eq (k : Source) (s : State) :
    clearCause k s = { s with mi := { s.mi with cause := s.mi.cause &&& ~~~k.flag } } := rfl

theorem Source.flag_getLsbD (k : Source) (j : Nat) : k.flag.getLsbD j = decide (j = k.bit) := by
  rcases Nat.lt_or_ge j 6 with hj | hj
  · revert j
    cases k <;> decide
  · rw [BitVec.getLsbD_of_ge _ _ hj, eq_comm, decide_eq_false_iff_not]
    cases k <;> simp only [Source.bit] <;> omega

/-- SetCause sets the bit of its source and no other (R139). -/
theorem setCause_getLsbD (k : Source) (s : State) (j : Nat) :
    (setCause k s).mi.cause.getLsbD j = (s.mi.cause.getLsbD j || decide (j = k.bit)) := by
  simp [setCause, Source.flag_getLsbD]

/-- ClearCause clears the bit of its source and no other (R140). -/
theorem clearCause_getLsbD (k : Source) (s : State) {j : Nat} (hj : j < 6) :
    (clearCause k s).mi.cause.getLsbD j = (s.mi.cause.getLsbD j && !decide (j = k.bit)) := by
  rw [← Source.flag_getLsbD]
  simp [clearCause, hj]

/-! ## The Audio DMA Engine -/

theorem audioPush_accepted {a : BitVec 24} {len : BitVec 18} {s : State}
    (h : s.ai.ready = true ∧ s.ai.fifo.length < 2) :
    audioPush a len s =
      { s with
        ai := { s.ai with
          fifo := s.ai.fifo ++ [⟨a, len, s.cfg.duration len s.ai.dacrate s.ai.bitrate⟩]
          ready := decide (s.ai.fifo = []) }
        events := s.events ++ [.audioOut a len s.ai.freq (dmaReadBytes s.cfg.rdramBytes s.mem a.toNat len.toNat)] } := by
  unfold audioPush
  rw [if_pos (by simp [h.1, h.2])]
  have hr : (if (s.ai.fifo ++ [(⟨a, len, s.cfg.duration len s.ai.dacrate s.ai.bitrate⟩ : AudioSlot)]).length = 2
      then false else s.ai.ready) = decide (s.ai.fifo = []) := by
    rcases hf : s.ai.fifo with _ | ⟨x, xs⟩
    · simp [h.1]
    · have := h.2
      rw [hf] at this
      simp at this ⊢
      intro hx
      exact absurd this hx
  simp only [hr]
  rfl

theorem audioPush_refused {a : BitVec 24} {len : BitVec 18} {s : State}
    (h : ¬ (s.ai.ready = true ∧ s.ai.fifo.length < 2)) : audioPush a len s = s := by
  unfold audioPush
  rw [if_neg (by simpa using h)]

theorem audioHandleDma_idle {t : Nat} {s : State} (h : s.ai.fifo = []) : audioHandleDma t s = s := by
  simp [audioHandleDma, h]

theorem audioHandleDma_counts {t : Nat} {s : State} {slot : AudioSlot} {rest : List AudioSlot}
    (h : s.ai.fifo = slot :: rest) (ht : s.ai.elapsed + t < slot.dur) :
    audioHandleDma t s = { s with ai := { s.ai with elapsed := s.ai.elapsed + t } } := by
  unfold audioHandleDma
  rw [h]
  exact if_neg (by simpa using ht)

theorem audioHandleDma_pops {t : Nat} {s : State} {slot : AudioSlot} {rest : List AudioSlot}
    (h : s.ai.fifo = slot :: rest) (ht : slot.dur ≤ s.ai.elapsed + t) :
    audioHandleDma t s =
      setCause .ai { s with ai := { s.ai with fifo := rest, ready := true, elapsed := 0 } } := by
  unfold audioHandleDma
  rw [h]
  refine (if_pos (by simpa using ht)).trans ?_
  simp [audioPop, State.withAi, h]

/-! ## The Serial DMA Engine -/

theorem serialTick_idle {t : Nat} {s : State} (h : s.si.dmaBusy = false) : serialTick t s = s := by
  simp [serialTick, h]

theorem serialTick_counts {t : Nat} {s : State} (h : s.si.dmaBusy = true) (ht : s.si.elapsed + t < s.si.cost) :
    serialTick t s = { s with si := { s.si with elapsed := s.si.elapsed + t } } := by
  unfold serialTick
  rw [if_pos h]
  exact if_neg (by simpa using ht)

theorem serialTick_completes {t : Nat} {s : State} (h : s.si.dmaBusy = true) (ht : s.si.cost ≤ s.si.elapsed + t) :
    serialTick t s =
      setCause .si
        { s with si := { s.si with dmaBusy := false, dir := none, elapsed := 0, cost := 0, intr := true } } := by
  unfold serialTick
  rw [if_pos h]
  exact (if_pos (by simpa using ht)).trans rfl

theorem serialHandleDma_busy {dir : Dir} {v : Word} {s : State} (h : s.si.dmaBusy = true) :
    serialHandleDma dir v s = s := by
  simp [serialHandleDma, h]

theorem serialHandleDma_write {v : Word} {s : State} (h : s.si.dmaBusy = false) :
    serialHandleDma .write v s =
      { s with
        si := { s.si with
          pifAddr := v
          dmaBusy := true
          dir := some .write
          elapsed := 0
          channel := 0
          cost := s.cfg.siTransferCost
          pifRam := pifWriteBytes s.si.pifRam 0 (dmaReadBytes s.cfg.rdramBytes s.mem s.si.dramAddr.toNat 64) } } := by
  simp [serialHandleDma, h, serialMove, serialWrite, State.withSi]

theorem serialHandleDma_read {v : Word} {s : State} (h : s.si.dmaBusy = false) :
    serialHandleDma .read v s =
      { s with
        si := { s.si with
          pifAddr := v
          dmaBusy := true
          dir := some .read
          elapsed := 0
          channel := (scanPif s).ch
          cost := s.cfg.siTransferCost + (scanPif s).total
          pifRam := (scanPif s).pif }
        mem := dmaWriteBytes s.cfg.rdramBytes s.mem s.si.dramAddr.toNat (scanPif s).pif.toList
        draws := (scanPif s).draws } := by
  simp [serialHandleDma, h, serialMove, serialRead, State.withSi, State.withMem, State.withDraws, scanPif]

theorem fitAnswer_length (rx : Nat) (bs : List Byte) : (fitAnswer rx bs).length = rx := by
  simp [fitAnswer]
  omega

/-- An answer of a device has the length asked for (R215). -/
theorem joybusDevice_length {c : Config} {draw ch rx : Nat} {cmd bs : List Byte}
    (h : joybusDevice c draw ch cmd rx = some bs) : bs.length = rx := by
  unfold joybusDevice at h
  split at h
  · cases hj : Config.joybusAnswer draw ch cmd rx with
    | none => simp [hj] at h
    | some x =>
      simp [hj] at h
      subst h
      exact fitAnswer_length rx x
  · unfold standardController at h
    split at h
    · split at h
      · cases h
      · split at h
        · cases h
          exact fitAnswer_length _ _
        · split at h
          · cases h
            exact fitAnswer_length _ _
          · cases h
    · cases h

theorem pifWrite_get (p : Vector Byte 64) (i j : Nat) (b : Byte) :
    (pifWrite p i b)[j]? = if i = j ∧ j < 64 then some b else p[j]? := by
  unfold pifWrite
  rw [Vector.getElem?_setIfInBounds]
  by_cases hj : j < 64
  · by_cases hij : i = j <;> simp [hj, hij]
  · by_cases hij : i = j
    · subst hij
      simp [hj]
    · simp [hij]

theorem pifWriteBytes_outside (bs : List Byte) (p : Vector Byte 64) (i j : Nat) (h : j < i ∨ i + bs.length ≤ j) :
    (pifWriteBytes p i bs)[j]? = p[j]? := by
  induction bs generalizing p i with
  | nil => rfl
  | cons b bs ih =>
    simp only [List.length_cons] at h
    unfold pifWriteBytes
    rw [ih _ _ (by omega), pifWrite_get, if_neg (by omega)]

theorem pifWriteBytes_inside (bs : List Byte) (p : Vector Byte 64) (i j : Nat) (h : j < bs.length) (hi : i + j < 64) :
    (pifWriteBytes p i bs)[i + j]? = bs[j]? := by
  induction bs generalizing p i j with
  | nil => simp at h
  | cons b bs ih =>
    unfold pifWriteBytes
    rcases j with _ | j
    · rw [pifWriteBytes_outside _ _ _ _ (by omega), pifWrite_get, if_pos (by omega)]
      rfl
    · rw [show i + (j + 1) = i + 1 + j from by omega, ih _ _ _ (by simpa using h) (by omega)]
      rfl

theorem processChannel_ch (c : Config) (i tx rx : Nat) (z : ChannelScan) : (processChannel c i tx rx z).ch = z.ch := rfl

/-- A channel whose frame fits changes no byte from 63 on. -/
theorem processChannel_byte63 {c : Config} {i tx rx : Nat} {z : ChannelScan} (h : i + 2 + tx + rx ≤ 63) :
    (processChannel c i tx rx z).pif[63]? = z.pif[63]? := by
  unfold processChannel
  split
  next _ => simp only []; rw [pifWrite_get, if_neg (by omega)]
  next _ bs hd =>
    simp only []
    rw [pifWriteBytes_outside _ _ _ _ (by rw [joybusDevice_length hd]; omega)]

/-- The scan passes over at most 6 channels, and changes no byte 63 of PIF RAM (R210). -/
theorem processRam_bounds (c : Config) (fuel i : Nat) (z : ChannelScan) (hz : z.ch ≤ 6) :
    (processRam c fuel i z).ch ≤ 6 ∧ (processRam c fuel i z).pif[63]? = z.pif[63]? := by
  induction fuel generalizing i z with
  | zero => exact ⟨hz, rfl⟩
  | succ fuel ih =>
    unfold processRam
    split
    next hc =>
      simp only []
      split
      · exact ⟨hz, rfl⟩
      split
      · exact ih _ _ hz
      split
      · exact ih _ _ (by simp only []; omega)
      split
      · exact ⟨hz, rfl⟩
      next hf =>
        have h := ih (i + 2 + (pifRead z.pif i &&& 0x3F#8).toNat + (pifRead z.pif (i + 1) &&& 0x3F#8).toNat)
          { processChannel c i (pifRead z.pif i &&& 0x3F#8).toNat (pifRead z.pif (i + 1) &&& 0x3F#8).toNat z with
            ch := z.ch + 1 } (by simp only []; omega)
        exact ⟨h.1, h.2.trans (processChannel_byte63 (by omega))⟩
    · exact ⟨hz, rfl⟩

/-- 63 - i rounds are enough from byte i: the bound on the rounds cuts nothing off. -/
theorem processRam_rounds (c : Config) (f g i : Nat) (z : ChannelScan) (hf : 63 - i ≤ f) (hg : 63 - i ≤ g) :
    processRam c f i z = processRam c g i z := by
  induction f generalizing g i z with
  | zero =>
    cases g with
    | zero => rfl
    | succ g =>
      unfold processRam
      rw [if_neg (by omega)]
  | succ f ih =>
    cases g with
    | zero =>
      unfold processRam
      rw [if_neg (by omega)]
    | succ g =>
      have ih' : ∀ j y, i < j → processRam c f j y = processRam c g j y := fun j y hj =>
        ih g j y (by omega) (by omega)
      unfold processRam
      simp only [ih' (i + 1) _ (by omega), fun tx rx y => ih' (i + 2 + tx + rx) y (by omega)]

/-! ## The step -/

theorem perform_live {s : State} (h : s.phase = .live) (i : Instr) : perform i s = exec i s := by
  unfold perform
  rw [h]

/-- The operation picked is one of those issued, and the others are too. -/
theorem pick_mem {s : State} {w : Bool} {es others : List Issued} {e : Issued} (h : pick s w es = some (e, others)) :
    e ∈ es ∧ held s (decode s.cfg e.request) = false ∧ ∀ x ∈ others, x ∈ es := by
  induction es generalizing w others with
  | nil => simp [pick] at h
  | cons d ds ih =>
    unfold pick at h
    split at h
    · cases hp : pick s (w || decide (d.agent = .steppingLoop)) ds with
      | none => simp [hp] at h
      | some p =>
        obtain ⟨x, os⟩ := p
        simp [hp] at h
        obtain ⟨rfl, rfl⟩ := h
        obtain ⟨h1, h2, h3⟩ := ih hp
        exact ⟨List.mem_cons_of_mem _ h1, h2, fun y hy => by
          rcases List.mem_cons.1 hy with rfl | hy
          · exact List.mem_cons_self
          · exact List.mem_cons_of_mem _ (h3 y hy)⟩
    next hn =>
      simp at h hn
      obtain ⟨rfl, rfl⟩ := h
      exact ⟨List.mem_cons_self, hn.2, fun y hy => List.mem_cons_of_mem _ hy⟩

/-- Everything a step that answers a next state can have done. -/
theorem step_next {s t : State} (h : step s = .next t) :
    (s.pending = [] ∧ t = s) ∨
    ∃ e others, pick s false s.pending = some (e, others) ∧
      (s.phase = .live ∨ decode s.cfg e.request = .portConstruct) ∧
      exec (decode s.cfg e.request) { s with pending := others } = .next t := by
  unfold step stepIssued at h
  split at h
  next hp => exact .inl ⟨hp, (Host.Outcome.next.inj h).symm⟩
  · split at h
    · cases h
    next e others he =>
      refine .inr ⟨e, others, he, ?_⟩
      unfold perform at h
      split at h
      next hl => exact ⟨.inl hl, h⟩
      next hc => exact ⟨.inr hc, hc ▸ h⟩
      · cases h

end Sys2Proof.Machine
end

