-- ==== Sys2Proof/Laws/Operands.lean ====
section
/-! SUPPORT. What each operand form and flag computation gives, in numbers and bits. -/

namespace Sys2Proof.Machine

open Sys2Proof

/-- The field mask of a pointer register (R106, R108, R110). -/
theorem pointerField_toNat (v : Word) : (pointerField v).toNat = v.toNat % 2 ^ 24 / 8 * 8 := by
  have h : pointerField v = v.extractLsb' 3 21 ++ 0#3 := by
    apply BitVec.eq_of_getLsbD_eq
    intro i hi
    have hm : ∀ i < 24, (0x00FFFFF8#32).getLsbD i = decide (3 ≤ i) := by decide
    unfold pointerField
    rw [BitVec.getLsbD_setWidth, BitVec.getLsbD_and, hm i hi, BitVec.getLsbD_append]
    by_cases h3 : i < 3
    · simp [h3]
    · simp [h3, hi, show 3 + (i - 3) = i from by omega, show i - 3 < 21 from by omega, show 3 ≤ i from by omega]
  rw [h, BitVec.toNat_append, BitVec.extractLsb'_toNat]
  simp [Nat.shiftLeft_eq, Nat.shiftRight_eq_div_pow]
  have := v.isLt
  omega

/-- The field mask of AI_LEN (R106). -/
theorem lengthField_toNat (v : Word) : (lengthField v).toNat = v.toNat % 2 ^ 18 / 8 * 8 := by
  have h : lengthField v = v.extractLsb' 3 15 ++ 0#3 := by
    apply BitVec.eq_of_getLsbD_eq
    intro i hi
    have hm : ∀ i < 18, (0x0003FFF8#32).getLsbD i = decide (3 ≤ i) := by decide
    unfold lengthField
    rw [BitVec.getLsbD_setWidth, BitVec.getLsbD_and, hm i hi, BitVec.getLsbD_append]
    by_cases h3 : i < 3
    · simp [h3]
    · simp [h3, hi, show 3 + (i - 3) = i from by omega, show i - 3 < 15 from by omega, show 3 ≤ i from by omega]
  rw [h, BitVec.toNat_append, BitVec.extractLsb'_toNat]
  simp [Nat.shiftLeft_eq, Nat.shiftRight_eq_div_pow]
  have := v.isLt
  omega

/-- The bit-pair primitive: set wins over clear, neither keeps (R10). -/
theorem bitPair_eq (old : Bool) (v : Word) (c s : Nat) :
    bitPair old v c s = (v.getLsbD s || (!v.getLsbD c && old)) := by
  unfold bitPair
  cases v.getLsbD s <;> cases v.getLsbD c <;> simp

theorem maskPairBit_getLsbD (old : BitVec 6) (v : Word) {k j : Nat} (hj : j < 6) :
    (maskPairBit old v k).getLsbD j =
      (decide (j = k) && (v.getLsbD (2 * k + 1) || (!v.getLsbD (2 * k) && old.getLsbD k))) := by
  unfold maskPairBit
  rw [bitPair_eq]
  split
  next h =>
    rw [h, Bool.and_true, BitVec.getLsbD_shiftLeft]
    rcases Nat.lt_trichotomy j k with h | h | h
    · simp [h, Nat.ne_of_lt h]
    · subst h
      simp [hj]
    · simp [hj, Nat.not_lt.2 (Nat.le_of_lt h), Nat.ne_of_gt h, show j - k ≠ 0 from by omega]
  next h =>
    rw [Bool.not_eq_true] at h
    simp only [h, Bool.and_false, BitVec.getLsbD_zero]

/-- Every mask bit of a bit-pair MI_MASK write (R136). -/
theorem maskPairs_getLsbD (old : BitVec 6) (v : Word) {k : Nat} (hk : k < 6) :
    (maskPairs old v).getLsbD k = (v.getLsbD (2 * k + 1) || (!v.getLsbD (2 * k) && old.getLsbD k)) := by
  unfold maskPairs
  simp only [BitVec.getLsbD_or, maskPairBit_getLsbD _ _ hk]
  rcases k with _ | _ | _ | _ | _ | _ | k
  all_goals first | omega | simp

theorem toNat_append8 {w : Nat} (x : BitVec w) (y : Byte) : (x ++ y).toNat = x.toNat * 256 + y.toNat := by
  rw [BitVec.toNat_append, ← Nat.shiftLeft_add_eq_or_of_lt y.isLt, Nat.shiftLeft_eq]

/-- The bytes of the memory image that a DMA engine reads (R79). -/
theorem dmaReadBytes_get (size : Nat) (m : Memory) (a n i : Nat) (h : i < n) :
    (dmaReadBytes size m a n)[i]? = some (dmaRead size m (a + i)) := by
  simp [dmaReadBytes, h]

theorem dmaReadBytes_length (size : Nat) (m : Memory) (a n : Nat) : (dmaReadBytes size m a n).length = n := by
  simp [dmaReadBytes]

/-- A DMA write of bytes inside the image (R79). -/
theorem read_dmaWriteBytes_inside {size : Nat} (bs : List Byte) {m : Memory} (h : m.wf = true) (a i : Nat)
    (hi : i < bs.length) (hs : a + i < size) :
    (dmaWriteBytes size m a bs).read (a + i) = bs[i] := by
  induction bs generalizing m a i with
  | nil => simp at hi
  | cons b bs ih =>
    unfold dmaWriteBytes
    have hw : (dmaWrite size m a b).wf = true := by
      unfold dmaWrite
      split
      · exact Memory.wf_write h a b
      · exact h
    rcases i with _ | i
    · rw [read_dmaWriteBytes_outside bs hw (Or.inl (by omega))]
      unfold dmaWrite
      rw [if_pos (by omega)]
      exact Memory.read_write_same h a b
    · rw [show a + (i + 1) = a + 1 + i from by omega, ih hw _ _ (by simpa using hi) (by omega)]
      rfl

/-- Where no row has the owner, no address is routed to it. -/
theorem routeIn_ne {o : Owner} {rs : List Region} (ho : o ≠ .unmapped) (h : ∀ r ∈ rs, r.owner ≠ o) (a : Nat) :
    routeIn rs a ≠ o := by
  induction rs with
  | nil => exact fun hc => ho hc.symm
  | cons r rs ih =>
    unfold routeIn
    split
    · exact h r List.mem_cons_self
    · exact ih fun x hx => h x (List.mem_cons_of_mem _ hx)

/-- A MEM operation that the decoder makes lies in the image (R152). -/
theorem owned_memoryImage {c : Config} {a : Word} {n : Width} (h : owned c .memoryImage a n = true) :
    a.toNat + n.bytes ≤ c.rdramBytes := by
  unfold owned aligned at h
  simp only [Bool.and_eq_true, beq_iff_eq, decide_eq_true_eq] at h
  obtain ⟨h1, h2⟩ := h
  have hr : a.toNat ≤ c.rdramBytes - 1 := by
    by_contra hc
    have hn : (⟨0, c.rdramBytes - 1, Owner.memoryImage⟩ : Region).holds a.toNat = false := by
      simp [Region.holds]
      omega
    unfold route regions at h2
    rw [routeIn, if_neg (by rw [hn]; exact Bool.false_ne_true)] at h2
    exact routeIn_ne (by decide) (by simp [blockRegion]) a.toNat h2
  have hs : c.rdramBytes = 0x00400000 ∨ c.rdramBytes = 0x00800000 := by
    unfold Config.rdramBytes
    cases c.rdramSize
    · exact .inl rfl
    · exact .inr rfl
  cases n <;> simp only [Width.bytes] at h1 ⊢ <;> omega

end Sys2Proof.Machine
end

