-- ==== Sys2Proof/Laws/Display.lean ====
section
/-! SUPPORT. What the ingestion of a row and the scan of it do, and which components the DMA requests leave alone. -/

namespace Sys2Proof.Machine

open Sys2Proof

theorem ingestedRow_length (s : State) (finish : BitVec 24) :
    (ingestedRow s finish).length = rowLength s.dpc.current finish := by simp [ingestedRow]

/-- Everything a DPC_END write that is not held does (R241). -/
theorem dpcEndWrite_eq (v : Word) (s : State) :
    dpcEndWrite v s =
      { s with
        mi := { s.mi with
          cause := if (scanRow s.cfg s.dpc.skip (ingestedRow s (pointerField v))).2
            then s.mi.cause ||| Source.dp.flag else s.mi.cause }
        dpc := { s.dpc with
          finish := pointerField v
          current := pointerField v
          skip := (scanRow s.cfg s.dpc.skip (ingestedRow s (pointerField v))).1
          rows := if ingestedRow s (pointerField v) = [] then s.dpc.rows
            else s.dpc.rows ++ [ingestedRow s (pointerField v)]
          cmdReady := if ingestedRow s (pointerField v) = [] then s.dpc.cmdReady else true
          frameFinished := if (scanRow s.cfg s.dpc.skip (ingestedRow s (pointerField v))).2 then true
            else s.dpc.frameFinished }
        draws := s.draws + (if s.dpc.xbus then (ingestedRow s (pointerField v)).length else 0) } := by
  unfold dpcEndWrite
  cases hx : s.dpc.xbus <;> cases hs : (scanRow s.cfg s.dpc.skip (ingestedRow s (pointerField v))).2 <;>
    simp [setCause, State.withMi, State.withDpc, drawn, State.withDraws, hx, hs]

/-- A row has an even number of words where both pointers are aligned (R241). -/
theorem rowLength_even {current finish : BitVec 24} (h1 : current.toNat % 8 = 0) (h2 : finish.toNat % 8 = 0) :
    rowLength current finish % 2 = 0 := by
  unfold rowLength
  split <;> omega

/-- The skip count stays below the longest command (R243, R258). -/
theorem scanRow_skip_le {c : Config} (hc : ∀ n ∈ c.rdpCmdLen, 1 ≤ n ∧ n ≤ 22) (row : List Word) {skip : Nat}
    (h : skip ≤ 43) : (scanRow c skip row).1 ≤ 43 := by
  induction row generalizing skip with
  | nil => exact h
  | cons w ws ih =>
    unfold scanRow
    split
    · exact ih (by omega)
    · have hl : c.cmdLen (cmdId w) ≤ 22 := by
        unfold Config.cmdLen
        rw [List.getD_eq_getElem?_getD]
        cases hx : c.rdpCmdLen[(cmdId w).toNat]? with
        | none => simp
        | some n => exact (hc n (List.mem_of_getElem? hx)).2
      exact ih (by omega)

@[simp] theorem audioPush_mi (a : BitVec 24) (len : BitVec 18) (s : State) : (audioPush a len s).mi = s.mi := by
  unfold audioPush
  split <;> rfl

@[simp] theorem aiLenWrite_mi (v : Word) (s : State) : (aiLenWrite v s).mi = s.mi := by simp [aiLenWrite]

@[simp] theorem serialHandleDma_mi (dir : Dir) (v : Word) (s : State) : (serialHandleDma dir v s).mi = s.mi := by
  unfold serialHandleDma
  split
  · rfl
  · cases dir <;> rfl

@[simp] theorem serialHandleDma_dpc (dir : Dir) (v : Word) (s : State) : (serialHandleDma dir v s).dpc = s.dpc := by
  unfold serialHandleDma
  split
  · rfl
  · cases dir <;> rfl

@[simp] theorem serialHandleDma_ai (dir : Dir) (v : Word) (s : State) : (serialHandleDma dir v s).ai = s.ai := by
  unfold serialHandleDma
  split
  · rfl
  · cases dir <;> rfl

end Sys2Proof.Machine
end

