-- ==== Sys2Proof/Laws/Moves.lean ====
section
/-! SUPPORT. Which requests are moves of which agent, what issuing one does, and that no operation touches the issue
queue. -/

namespace Sys2Proof.Machine

open Sys2Proof

/-! ## The moves of the agents -/

theorem issue_move {s : State} {e : Issued} (h : mayIssue e.agent e.request = true) :
    s.issue e = { s with pending := s.pending ++ [e] } := by
  rw [State.issue, if_pos h]
  rfl

theorem issue_noMove {s : State} {e : Issued} (h : mayIssue e.agent e.request = false) : s.issue e = s := by
  rw [State.issue, if_neg (by simp [h])]

/-- Bus operations are the CPU's alone. -/
theorem mayIssue_bus (a : Agent) (op : BusOp) : mayIssue a (.bus op) = decide (a = .steppingLoop) := by
  cases a <;> rfl

/-- A refused port word is a move of the host and of the external components. -/
theorem mayIssue_refused {word : Word} {t : Nat} (h : decodePort word t = .refuseUnknownPortOp word) :
    mayIssue .host (.port word t) = true ∧ mayIssue .external (.port word t) = true := by
  simp [mayIssue, h, isHostPort, isExternalPort]

/-- What every branch of a choice satisfies, the choice does. -/
theorem all_ite {α : Type} {p : α → Bool} {c : Prop} {hc : Decidable c} {x y : Option α} (hx : x.all p = true)
    (hy : y.all p = true) : (if c then x else y).all p = true := by
  split
  · exact hx
  · exact hy

/-- Every port operation of R113 is a move of the stepping loop or of the host. -/
theorem portTable_moves (code k : Byte) (t : Nat) :
    (portTable code k t).all (fun i => isLoopPort i || isHostPort i) = true := by
  unfold portTable
  refine all_ite ?_ (all_ite ?_ ?_)
  · cases ExtSource.ofNumber k <;> rfl
  · cases ExtSource.ofNumber k <;> rfl
  repeat' refine all_ite ?_ ?_
  all_goals rfl

/-- The agent that withFetchWord names can issue the request. -/
theorem issuer_mayIssue (r : Request) : mayIssue (issuer r) r = true := by
  unfold issuer
  split
  next h => exact h
  next h =>
    cases r with
    | bus op => exact absurd rfl h
    | port word t =>
      simp only [mayIssue, Bool.not_eq_true] at h ⊢
      unfold decodePort at h ⊢
      split
      next hz =>
        rw [if_pos hz] at h
        have hm := portTable_moves (portCode word) (portK word) t
        cases hp : portTable (portCode word) (portK word) t with
        | none => rfl
        | some i =>
          rw [hp] at h hm
          simpa [show isLoopPort i = false from h] using hm
      · rfl

/-- What the stepping loop issues for a CPU step are moves of it. -/
theorem CpuStep_issued_moves (c : CpuStep) : ∀ e ∈ c.issued, mayIssue e.agent e.request = true := by
  intro e he
  simp only [CpuStep.issued, List.mem_append, List.mem_map, List.mem_cons, List.not_mem_nil, or_false] at he
  rcases he with ⟨op, -, rfl⟩ | rfl | rfl
  · rfl
  · rfl
  · rfl

/-! ## The issue queue -/

@[simp] theorem audioPush_pending (a : BitVec 24) (len : BitVec 18) (s : State) :
    (audioPush a len s).pending = s.pending := by
  unfold audioPush
  split <;> rfl

@[simp] theorem serialHandleDma_pending (dir : Dir) (v : Word) (s : State) :
    (serialHandleDma dir v s).pending = s.pending := by
  unfold serialHandleDma
  split
  · rfl
  · cases dir <;> rfl

@[simp] theorem dpcEndWrite_pending (v : Word) (s : State) : (dpcEndWrite v s).pending = s.pending := by
  rw [dpcEndWrite_eq]

@[simp] theorem audioHandleDma_pending (t : Nat) (s : State) : (audioHandleDma t s).pending = s.pending := by
  unfold audioHandleDma
  split
  · rfl
  · simp only []
    split <;> rfl

@[simp] theorem serialTick_pending (t : Nat) (s : State) : (serialTick t s).pending = s.pending := by
  unfold serialTick
  simp only []
  split
  · split <;> rfl
  · rfl

@[simp] theorem miModeWrite_pending (v : Word) (s : State) : (miModeWrite v s).pending = s.pending := by
  unfold miModeWrite
  split <;> rfl

theorem loadImage_pending {a : Word} {n : Width} {s t : State} (h : loadImage a n s = .next t) :
    t.pending = s.pending := by
  unfold loadImage at h
  split at h <;> cases h
  rfl

theorem storeImage_pending {a : Word} {d : Data} {s t : State} (h : storeImage a d s = .next t) :
    t.pending = s.pending := by
  unfold storeImage at h
  split at h <;> cases h
  rfl

/-- No operation touches the issue queue. -/
theorem exec_pending {i : Instr} {s t : State} (h : exec i s = .next t) : t.pending = s.pending := by
  cases i
  case portConstruct =>
    change execPortConstruct s = .next t at h
    unfold execPortConstruct at h
    split at h
    · cases h
      rfl
    · split at h <;> cases h
      rfl
  case swDpcEnd v =>
    change execSwDpcEnd v s = .next t at h
    unfold execSwDpcEnd at h
    split at h <;> cases h
    exact dpcEndWrite_pending v s
  case swMiMode v =>
    cases h
    exact miModeWrite_pending v s
  case swAiLen v =>
    cases h
    exact audioPush_pending _ _ _
  case portAdvance n =>
    cases h
    exact (serialTick_pending n _).trans (audioHandleDma_pending n s)
  case swSiPifAdRd64b v =>
    cases h
    exact serialHandleDma_pending _ v s
  case swSiPifAdWr64b v =>
    cases h
    exact serialHandleDma_pending _ v s
  case lbMem | lhMem | lwMem | ldMem => exact loadImage_pending h
  case sbMem | shMem | swMem | sdMem => exact storeImage_pending h
  all_goals
    cases h
    rfl

end Sys2Proof.Machine
end

