-- ==== Sys2Proof/Laws/Loop.lean ====
section
/-! SUPPORT. Where a frame run ends (spec/46_stepping_time.md R301, R308), and the state a session starts in. -/

namespace Sys2Proof.Machine

open Sys2Proof

theorem stepN_succ {k : Nat} {s t : State} (h : step s = .next t) : stepN (k + 1) s = stepN k t := by
  rw [stepN, h]

/-- What an operation-by-operation run that answers a state has done: n steps from states without the flag, and then
either the flag is true (R308) or all k operations are done. -/
theorem runToFrameEnd_next {k : Nat} {s t : State} (h : runToFrameEnd k s = .next t) :
    ∃ n, n ≤ k ∧ stepN n s = .next t ∧ (t.dpc.frameFinished = true ∨ n = k) ∧
      ∀ m, m < n → ∃ u, stepN m s = .next u ∧ u.dpc.frameFinished = false := by
  induction k generalizing s with
  | zero => exact ⟨0, Nat.le_refl 0, h, .inr rfl, fun m hm => absurd hm (Nat.not_lt_zero m)⟩
  | succ k ih =>
    unfold runToFrameEnd at h
    split at h
    next hf =>
      cases h
      exact ⟨0, Nat.zero_le _, rfl, .inl hf, fun m hm => absurd hm (Nat.not_lt_zero m)⟩
    next hf =>
      split at h
      next s' hs =>
        obtain ⟨n, hn, h1, h2, h3⟩ := ih h
        refine ⟨n + 1, Nat.succ_le_succ hn, (stepN_succ hs).trans h1, h2.imp_right (congrArg (· + 1)), fun m hm => ?_⟩
        cases m with
        | zero => exact ⟨s, rfl, Bool.eq_false_iff.2 hf⟩
        | succ m =>
          obtain ⟨u, hu, hv⟩ := h3 m (Nat.lt_of_succ_lt_succ hm)
          exact ⟨u, (stepN_succ hs).trans hu, hv⟩
      · cases h
      · cases h

/-- The run of R308 ends in the state that R308 names. -/
theorem runToFrameEnd_ended {k : Nat} {s t : State} (h : runToFrameEnd k s = .next t) (hf : t.dpc.frameFinished = true) :
    FrameEnded s t := by
  obtain ⟨n, -, h1, -, h3⟩ := runToFrameEnd_next h
  exact ⟨n, h1, hf, h3⟩

/-- Without the frame-finished flag no operation is held. -/
theorem held_eq_false {s : State} (h : s.dpc.frameFinished = false) (i : Instr) : held s i = false := by
  cases i <;> first | rfl | exact h

/-- Only a DPC_END write while the flag is true is held (R313). -/
theorem exec_notHeld {i : Instr} {s : State} (h : s.dpc.frameFinished = false) : exec i s ≠ .fault .heldDpcEnd := by
  cases i
  case swDpcEnd v =>
    change execSwDpcEnd v s ≠ _
    rw [execSwDpcEnd, h]
    exact fun e => nomatch e
  case portConstruct =>
    change execPortConstruct s ≠ _
    unfold execPortConstruct
    split
    · exact fun e => nomatch e
    · split <;> exact fun e => nomatch e
  case lbMem a | lhMem a | lwMem a | ldMem a =>
    change loadImage _ _ s ≠ _
    unfold loadImage
    split <;> exact fun e => nomatch e
  case sbMem a v | shMem a v | swMem a v | sdMem a v =>
    change storeImage _ _ s ≠ _
    unfold storeImage
    split <;> exact fun e => nomatch e
  all_goals exact fun e => nomatch e

/-- A step from a state without the flag is not held. -/
theorem step_notHeld {s : State} (h : s.dpc.frameFinished = false) : step s ≠ .fault .heldDpcEnd := by
  unfold step stepIssued
  split
  · exact fun e => nomatch e
  next e rest hp =>
    rw [hp, pick, held_eq_false h]
    simp only [Bool.false_and, Bool.or_self, Bool.false_eq_true, if_false]
    unfold perform
    split
    · exact exec_notHeld h
    · exact exec_notHeld h
    · exact fun e => nomatch e

/-- R301's corner case: inside a frame run that ends where R308 says no DPC_END write is held. -/
theorem runToFrameEnd_notHeld (k : Nat) (s : State) : runToFrameEnd k s ≠ .fault .heldDpcEnd := by
  induction k generalizing s with
  | zero => exact fun e => nomatch e
  | succ k ih =>
    unfold runToFrameEnd
    split
    · exact fun e => nomatch e
    next hf =>
      split
      · exact ih _
      next r hs => exact fun e => step_notHeld (Bool.eq_false_iff.2 hf) (hs.trans (by cases e; rfl))
      · exact fun e => nomatch e

theorem runFrameToEnd_notHeld (cs : List CpuStep) (s : State) : runFrameToEnd cs s ≠ .fault .heldDpcEnd := by
  induction cs generalizing s with
  | nil => exact fun e => nomatch e
  | cons c cs ih =>
    unfold runFrameToEnd
    split
    · exact fun e => nomatch e
    · split
      · exact ih _
      next r hs => exact fun e => runToFrameEnd_notHeld _ _ (hs.trans (by cases e; rfl))
      · exact fun e => nomatch e

/-- A session's start, with any boot state placed, is fresh in the sense of R309. -/
theorem fresh_boot (c : Config) (m : Memory) (pif : Vector Byte 64) : Fresh ((State.fresh c).boot m pif) :=
  ⟨rfl, rfl, rfl, rfl, rfl, rfl, rfl⟩

end Sys2Proof.Machine
end

