-- ==== Sys2Proof/Laws/PerInstr.lean ====
section
/-! SUPPORT. Statements made for each instruction. RoundTrip: under the bases of R71 and any other parameters, decoding
the encoding of a well-formed operation gives it back. -/

namespace Sys2Proof.Laws.RoundTrip

open Sys2Proof Sys2Proof.Machine

/-- Decode of encode is the instruction, for every parameter choice under which it is well formed. -/
def Statement (i : Instr) : Prop :=
  ∀ c : Config, c.bases = Bases.default → WellFormed c i = true → decode c (encode c i) = i

/-- A bus operation owned by o decodes as o's. -/
theorem decode_owned {c : Config} {o : Owner} {op : BusOp} (h : owned c o op.addr op.width = true) :
    decode c (.bus op) = decodeOwned c op o := by
  obtain ⟨ha, hr⟩ := decodeBus_of_owned h
  rw [decode, decodeBus_of_aligned c ha, hr]

theorem swMiMode (v : Word) : Statement (.swMiMode v) := by
  intro c h _
  exact decode_sw_mi h 0x00#20 v (by decide)

theorem lwMiMode : Statement (.lwMiMode) := by
  intro c h _
  exact decode_lw_mi h 0x00#20 (by decide)

theorem swMiVersion (v : Word) : Statement (.swMiVersion v) := by
  intro c h _
  exact decode_sw_mi h 0x04#20 v (by decide)

theorem lwMiVersion : Statement (.lwMiVersion) := by
  intro c h _
  exact decode_lw_mi h 0x04#20 (by decide)

theorem swMiIntr (v : Word) : Statement (.swMiIntr v) := by
  intro c h _
  exact decode_sw_mi h 0x08#20 v (by decide)

theorem lwMiIntr : Statement (.lwMiIntr) := by
  intro c h _
  exact decode_lw_mi h 0x08#20 (by decide)

theorem swMiMaskWholesale (v : Word) : Statement (.swMiMaskWholesale v) := by
  intro c h hw
  have hm : c.miMaskWrite = .wholesale := by simpa [WellFormed] using hw
  have hd := decode_sw_mi h 0x0C#20 v (by decide)
  rw [show encode c (.swMiMaskWholesale v) = writeAt c.bases.mi (0x0C#20 |>.setWidth 32) v from rfl, hd]
  simp [writeMi, writeMiMask, hm]

theorem swMiMaskBitpair (v : Word) : Statement (.swMiMaskBitpair v) := by
  intro c h hw
  have hm : c.miMaskWrite = .bitpair := by simpa [WellFormed] using hw
  have hd := decode_sw_mi h 0x0C#20 v (by decide)
  rw [show encode c (.swMiMaskBitpair v) = writeAt c.bases.mi (0x0C#20 |>.setWidth 32) v from rfl, hd]
  simp [writeMi, writeMiMask, hm]

theorem lwMiMask : Statement (.lwMiMask) := by
  intro c h _
  exact decode_lw_mi h 0x0C#20 (by decide)

theorem swAiDramAddr (v : Word) : Statement (.swAiDramAddr v) := by
  intro c h _
  exact decode_sw_ai h 0x00#20 v (by decide)

theorem lwAiDramAddr : Statement (.lwAiDramAddr) := by
  intro c h _
  exact decode_lw_ai h 0x00#20 (by decide)

theorem swAiLen (v : Word) : Statement (.swAiLen v) := by
  intro c h _
  exact decode_sw_ai h 0x04#20 v (by decide)

theorem lwAiLen : Statement (.lwAiLen) := by
  intro c h _
  exact decode_lw_ai h 0x04#20 (by decide)

theorem swAiControl (v : Word) : Statement (.swAiControl v) := by
  intro c h _
  exact decode_sw_ai h 0x08#20 v (by decide)

theorem lwAiControl : Statement (.lwAiControl) := by
  intro c h _
  exact decode_lw_ai h 0x08#20 (by decide)

theorem swAiStatus (v : Word) : Statement (.swAiStatus v) := by
  intro c h _
  exact decode_sw_ai h 0x0C#20 v (by decide)

theorem lwAiStatus : Statement (.lwAiStatus) := by
  intro c h _
  exact decode_lw_ai h 0x0C#20 (by decide)

theorem swAiDacrate (v : Word) : Statement (.swAiDacrate v) := by
  intro c h _
  exact decode_sw_ai h 0x10#20 v (by decide)

theorem lwAiDacrate : Statement (.lwAiDacrate) := by
  intro c h _
  exact decode_lw_ai h 0x10#20 (by decide)

theorem swAiBitrate (v : Word) : Statement (.swAiBitrate v) := by
  intro c h _
  exact decode_sw_ai h 0x14#20 v (by decide)

theorem lwAiBitrate : Statement (.lwAiBitrate) := by
  intro c h _
  exact decode_lw_ai h 0x14#20 (by decide)

theorem swSiDramAddr (v : Word) : Statement (.swSiDramAddr v) := by
  intro c h _
  exact decode_sw_si h 0x00#20 v (by decide)

theorem lwSiDramAddr : Statement (.lwSiDramAddr) := by
  intro c h _
  exact decode_lw_si h 0x00#20 (by decide)

theorem swSiPifAdRd64b (v : Word) : Statement (.swSiPifAdRd64b v) := by
  intro c h _
  exact decode_sw_si h 0x04#20 v (by decide)

theorem lwSiPifAdRd64b : Statement (.lwSiPifAdRd64b) := by
  intro c h _
  exact decode_lw_si h 0x04#20 (by decide)

theorem swSiPifAdWr64b (v : Word) : Statement (.swSiPifAdWr64b v) := by
  intro c h _
  exact decode_sw_si h 0x10#20 v (by decide)

theorem lwSiPifAdWr64b : Statement (.lwSiPifAdWr64b) := by
  intro c h _
  exact decode_lw_si h 0x10#20 (by decide)

theorem swSiStatus (v : Word) : Statement (.swSiStatus v) := by
  intro c h _
  exact decode_sw_si h 0x18#20 v (by decide)

theorem lwSiStatus : Statement (.lwSiStatus) := by
  intro c h _
  exact decode_lw_si h 0x18#20 (by decide)

theorem swDpcStart (v : Word) : Statement (.swDpcStart v) := by
  intro c h _
  exact decode_sw_dpc h 0x00#20 v (by decide)

theorem lwDpcStart : Statement (.lwDpcStart) := by
  intro c h _
  exact decode_lw_dpc h 0x00#20 (by decide)

theorem swDpcEnd (v : Word) : Statement (.swDpcEnd v) := by
  intro c h _
  exact decode_sw_dpc h 0x04#20 v (by decide)

theorem lwDpcEnd : Statement (.lwDpcEnd) := by
  intro c h _
  exact decode_lw_dpc h 0x04#20 (by decide)

theorem swDpcCurrent (v : Word) : Statement (.swDpcCurrent v) := by
  intro c h _
  exact decode_sw_dpc h 0x08#20 v (by decide)

theorem lwDpcCurrent : Statement (.lwDpcCurrent) := by
  intro c h _
  exact decode_lw_dpc h 0x08#20 (by decide)

theorem swDpcStatus (v : Word) : Statement (.swDpcStatus v) := by
  intro c h _
  exact decode_sw_dpc h 0x0C#20 v (by decide)

theorem lwDpcStatus : Statement (.lwDpcStatus) := by
  intro c h _
  exact decode_lw_dpc h 0x0C#20 (by decide)

theorem swDpcClock (v : Word) : Statement (.swDpcClock v) := by
  intro c h _
  exact decode_sw_dpc h 0x10#20 v (by decide)

theorem lwDpcClock : Statement (.lwDpcClock) := by
  intro c h _
  exact decode_lw_dpc h 0x10#20 (by decide)

theorem swDpcBufbusy (v : Word) : Statement (.swDpcBufbusy v) := by
  intro c h _
  exact decode_sw_dpc h 0x14#20 v (by decide)

theorem lwDpcBufbusy : Statement (.lwDpcBufbusy) := by
  intro c h _
  exact decode_lw_dpc h 0x14#20 (by decide)

theorem swDpcPipebusy (v : Word) : Statement (.swDpcPipebusy v) := by
  intro c h _
  exact decode_sw_dpc h 0x18#20 v (by decide)

theorem lwDpcPipebusy : Statement (.lwDpcPipebusy) := by
  intro c h _
  exact decode_lw_dpc h 0x18#20 (by decide)

theorem swDpcTmem (v : Word) : Statement (.swDpcTmem v) := by
  intro c h _
  exact decode_sw_dpc h 0x1C#20 v (by decide)

theorem lwDpcTmem : Statement (.lwDpcTmem) := by
  intro c h _
  exact decode_lw_dpc h 0x1C#20 (by decide)

theorem swRiMode (v : Word) : Statement (.swRiMode v) := by
  intro c h _
  exact decode_sw_ri h 0x00#20 v (by decide)

theorem lwRiMode : Statement (.lwRiMode) := by
  intro c h _
  exact decode_lw_ri h 0x00#20 (by decide)

theorem swRiConfig (v : Word) : Statement (.swRiConfig v) := by
  intro c h _
  exact decode_sw_ri h 0x04#20 v (by decide)

theorem lwRiConfig : Statement (.lwRiConfig) := by
  intro c h _
  exact decode_lw_ri h 0x04#20 (by decide)

theorem swRiCurrentLoad (v : Word) : Statement (.swRiCurrentLoad v) := by
  intro c h _
  exact decode_sw_ri h 0x08#20 v (by decide)

theorem lwRiCurrentLoad : Statement (.lwRiCurrentLoad) := by
  intro c h _
  exact decode_lw_ri h 0x08#20 (by decide)

theorem swRiSelect (v : Word) : Statement (.swRiSelect v) := by
  intro c h _
  exact decode_sw_ri h 0x0C#20 v (by decide)

theorem lwRiSelect : Statement (.lwRiSelect) := by
  intro c h _
  exact decode_lw_ri h 0x0C#20 (by decide)

theorem swRiRefresh (v : Word) : Statement (.swRiRefresh v) := by
  intro c h _
  exact decode_sw_ri h 0x10#20 v (by decide)

theorem lwRiRefresh : Statement (.lwRiRefresh) := by
  intro c h _
  exact decode_lw_ri h 0x10#20 (by decide)

theorem swRiLatency (v : Word) : Statement (.swRiLatency v) := by
  intro c h _
  exact decode_sw_ri h 0x14#20 v (by decide)

theorem lwRiLatency : Statement (.lwRiLatency) := by
  intro c h _
  exact decode_lw_ri h 0x14#20 (by decide)

theorem swRiRerror (v : Word) : Statement (.swRiRerror v) := by
  intro c h _
  exact decode_sw_ri h 0x18#20 v (by decide)

theorem lwRiRerror : Statement (.lwRiRerror) := by
  intro c h _
  exact decode_lw_ri h 0x18#20 (by decide)

theorem swRiWerror (v : Word) : Statement (.swRiWerror v) := by
  intro c h _
  exact decode_sw_ri h 0x1C#20 v (by decide)

theorem lwRiWerror : Statement (.lwRiWerror) := by
  intro c h _
  exact decode_lw_ri h 0x1C#20 (by decide)

theorem lwPifRam (j : BitVec 4) : Statement (.lwPifRam j) := by
  intro c h _
  have hr := route_pif h j
  have ho : owned c .pifRam (BusOp.addr (.read (c.bases.pifRam + 4#32 * j.setWidth 32) .w4)) (BusOp.width (.read (c.bases.pifRam + 4#32 * j.setWidth 32) .w4)) = true := by
    simp only [owned, BusOp.addr, hr.1, Bool.and_eq_true, decide_true, and_true]
    exact hr.2
  refine (decode_owned ho).trans ?_
  simp only [decodeOwned, decodePif, pifIndex_base_add]

theorem swPifRam (j : BitVec 4) (v : Word) : Statement (.swPifRam j v) := by
  intro c h _
  have hr := route_pif h j
  have ho : owned c .pifRam (BusOp.addr (.write (c.bases.pifRam + 4#32 * j.setWidth 32) (.w v))) (BusOp.width (.write (c.bases.pifRam + 4#32 * j.setWidth 32) (.w v))) = true := by
    simp only [owned, BusOp.addr, hr.1, Bool.and_eq_true, decide_true, and_true]
    exact hr.2
  refine (decode_owned ho).trans ?_
  simp only [decodeOwned, decodePif, pifIndex_base_add]

theorem lwMiReserved (off : BitVec 20) : Statement (.lwMiReserved off) := by
  intro c h hw
  simp only [WellFormed, miReserved, Bool.and_eq_true, beq_iff_eq, decide_eq_true_eq] at hw
  refine (decode_lw_mi h off hw.1).trans ?_
  unfold readMi
  split <;> first | rfl | omega

theorem swMiReserved (off : BitVec 20) (v : Word) : Statement (.swMiReserved off v) := by
  intro c h hw
  simp only [WellFormed, miReserved, Bool.and_eq_true, beq_iff_eq, decide_eq_true_eq] at hw
  refine (decode_sw_mi h off v hw.1).trans ?_
  unfold writeMi
  split <;> first | rfl | omega

theorem lwAiReserved (off : BitVec 20) : Statement (.lwAiReserved off) := by
  intro c h hw
  simp only [WellFormed, aiReserved, Bool.and_eq_true, beq_iff_eq, decide_eq_true_eq] at hw
  refine (decode_lw_ai h off hw.1).trans ?_
  unfold readAi
  split <;> first | rfl | omega

theorem swAiReserved (off : BitVec 20) (v : Word) : Statement (.swAiReserved off v) := by
  intro c h hw
  simp only [WellFormed, aiReserved, Bool.and_eq_true, beq_iff_eq, decide_eq_true_eq] at hw
  refine (decode_sw_ai h off v hw.1).trans ?_
  unfold writeAi
  split <;> first | rfl | omega

theorem lwSiReserved (off : BitVec 20) : Statement (.lwSiReserved off) := by
  intro c h hw
  simp only [WellFormed, siReserved, Bool.and_eq_true, Bool.or_eq_true, beq_iff_eq, decide_eq_true_eq] at hw
  refine (decode_lw_si h off hw.1).trans ?_
  unfold readSi
  split <;> first | rfl | omega

theorem swSiReserved (off : BitVec 20) (v : Word) : Statement (.swSiReserved off v) := by
  intro c h hw
  simp only [WellFormed, siReserved, Bool.and_eq_true, Bool.or_eq_true, beq_iff_eq, decide_eq_true_eq] at hw
  refine (decode_sw_si h off v hw.1).trans ?_
  unfold writeSi
  split <;> first | rfl | omega

theorem lwDpcReserved (off : BitVec 20) : Statement (.lwDpcReserved off) := by
  intro c h hw
  simp only [WellFormed, dpcReserved, Bool.and_eq_true, beq_iff_eq, decide_eq_true_eq] at hw
  refine (decode_lw_dpc h off hw.1).trans ?_
  unfold readDpc
  split <;> first | rfl | omega

theorem swDpcReserved (off : BitVec 20) (v : Word) : Statement (.swDpcReserved off v) := by
  intro c h hw
  simp only [WellFormed, dpcReserved, Bool.and_eq_true, beq_iff_eq, decide_eq_true_eq] at hw
  refine (decode_sw_dpc h off v hw.1).trans ?_
  unfold writeDpc
  split <;> first | rfl | omega

theorem lwRiReserved (off : BitVec 20) : Statement (.lwRiReserved off) := by
  intro c h hw
  simp only [WellFormed, riReserved, Bool.and_eq_true, beq_iff_eq, decide_eq_true_eq] at hw
  refine (decode_lw_ri h off hw.1).trans ?_
  unfold readRi
  split <;> first | rfl | omega

theorem swRiReserved (off : BitVec 20) (v : Word) : Statement (.swRiReserved off v) := by
  intro c h hw
  simp only [WellFormed, riReserved, Bool.and_eq_true, beq_iff_eq, decide_eq_true_eq] at hw
  refine (decode_sw_ri h off v hw.1).trans ?_
  unfold writeRi
  split <;> first | rfl | omega

theorem lbMem (a : Word) : Statement (.lbMem a) := by
  intro c h hw
  exact decode_owned (o := .memoryImage) (op := .read a .w1) hw

theorem sbMem (a : Word) (v : BitVec 8) : Statement (.sbMem a v) := by
  intro c h hw
  exact decode_owned (o := .memoryImage) (op := .write a (.b v)) hw

theorem lhMem (a : Word) : Statement (.lhMem a) := by
  intro c h hw
  exact decode_owned (o := .memoryImage) (op := .read a .w2) hw

theorem shMem (a : Word) (v : BitVec 16) : Statement (.shMem a v) := by
  intro c h hw
  exact decode_owned (o := .memoryImage) (op := .write a (.h v)) hw

theorem lwMem (a : Word) : Statement (.lwMem a) := by
  intro c h hw
  exact decode_owned (o := .memoryImage) (op := .read a .w4) hw

theorem swMem (a : Word) (v : BitVec 32) : Statement (.swMem a v) := by
  intro c h hw
  exact decode_owned (o := .memoryImage) (op := .write a (.w v)) hw

theorem ldMem (a : Word) : Statement (.ldMem a) := by
  intro c h hw
  exact decode_owned (o := .memoryImage) (op := .read a .w8) hw

theorem sdMem (a : Word) (v : BitVec 64) : Statement (.sdMem a v) := by
  intro c h hw
  exact decode_owned (o := .memoryImage) (op := .write a (.d v)) hw

theorem extR (a : Word) (n : Width) : Statement (.extR a n) := by
  intro c h hw
  exact decode_owned (o := .external) (op := .read a n) hw

theorem extW (a : Word) (d : Data) : Statement (.extW a d) := by
  intro c h hw
  exact decode_owned (o := .external) (op := .write a d) hw

theorem unmappedR (a : Word) (n : Width) : Statement (.unmappedR a n) := by
  intro c h hw
  exact decode_owned (o := .unmapped) (op := .read a n) hw

theorem unmappedW (a : Word) (d : Data) : Statement (.unmappedW a d) := by
  intro c h hw
  exact decode_owned (o := .unmapped) (op := .write a d) hw

theorem refuseUnsupportedWidth (op : BusOp) : Statement (.refuseUnsupportedWidth op) := by
  intro c h hw
  simp only [WellFormed, unsupportedWidth, Bool.and_eq_true, Bool.or_eq_true, decide_eq_true_eq] at hw
  obtain ⟨⟨ha, hn⟩, ho⟩ := hw
  refine (decodeBus_of_aligned c ha).trans ?_
  generalize route c op.addr = o at ho ⊢
  have reg : ∀ (b : Word) (f : BitVec 20 → Instr) (g : BitVec 20 → Word → Instr),
      decodeRegister b f g op = .refuseUnsupportedWidth op := by
    intro b f g
    unfold decodeRegister
    split <;> first | rfl | exact absurd rfl hn
  have pif : ∀ b : Word, decodePif b op = .refuseUnsupportedWidth op := by
    intro b
    unfold decodePif
    split <;> first | rfl | exact absurd rfl hn
  cases o <;> first | exact reg _ _ _ | exact pif _ | simp [Owner.isRegisterBlock] at ho

theorem refuseMisalignedBusAccess (op : BusOp) : Statement (.refuseMisalignedBusAccess op) := by
  intro c h hw
  exact decodeBus_of_misaligned c (by simpa [WellFormed] using hw)

theorem portQueryIrq : Statement (.portQueryIrq) := by
  intro c _ _
  rfl

theorem portAdvance (t : Nat) : Statement (.portAdvance t) := by
  intro c _ _
  rfl

theorem portConstruct : Statement (.portConstruct) := by
  intro c _ _
  rfl

theorem portRaiseSource (k : ExtSource) : Statement (.portRaiseSource k) := by
  intro c _ _
  cases k <;> rfl

theorem portClearSource (k : ExtSource) : Statement (.portClearSource k) := by
  intro c _ _
  cases k <;> rfl

theorem portQueryCmdReady : Statement (.portQueryCmdReady) := by
  intro c _ _
  rfl

theorem portQueryFrameFinished : Statement (.portQueryFrameFinished) := by
  intro c _ _
  rfl

theorem portExportWords : Statement (.portExportWords) := by
  intro c _ _
  rfl

theorem portExportRowLengths : Statement (.portExportRowLengths) := by
  intro c _ _
  rfl

theorem portClearCommands : Statement (.portClearCommands) := by
  intro c _ _
  rfl

theorem portClearFrameFinished : Statement (.portClearFrameFinished) := by
  intro c _ _
  rfl

theorem refuseUnknownPortOp (word : Word) : Statement (.refuseUnknownPortOp word) := by
  intro c h hw
  simp only [WellFormed, portWordKnown, Bool.not_eq_true', Bool.and_eq_false_iff, decide_eq_false_iff_not,
    Option.isSome_eq_false_iff, Option.isNone_iff_eq_none] at hw
  simp only [encode, decode, decodePort]
  split
  · next hz =>
    rcases hw with hw | hw
    · exact absurd hz hw
    · rw [hw]
      rfl
  · rfl

end Sys2Proof.Laws.RoundTrip
end

