-- ==== Sys2Proof/Tests/Slice0.lean ====
section
/-! SUPPORT. Tests: ill-formed operations refused, words of the encoding tables decoded, and single operations with the
results of spec/95_test_vectors.md (named in the docstrings) or computed by hand from the rule named. -/

namespace Sys2Proof.Tests

open Sys2Proof Sys2Proof.Machine

/-! ## WellFormed refuses an ill-formed term for each check -/

theorem test_wf_maskWrite : WellFormed Config.default (.swMiMaskBitpair 0#32) = false ∧
    WellFormed { Config.default with miMaskWrite := .bitpair } (.swMiMaskWholesale 0#32) = false := by decide

theorem test_wf_reservedOffsets :
    [Instr.lwMiReserved 0x0C#20, .swMiReserved 0x11#20 0#32, .lwAiReserved 0x14#20, .swAiReserved 0x19#20 0#32,
      .lwSiReserved 0x10#20, .swSiReserved 0x18#20 0#32, .lwSiReserved 0x1D#20, .lwDpcReserved 0x1C#20,
      .swDpcReserved 0x21#20 0#32, .lwRiReserved 0x1C#20, .swRiReserved 0x22#20 0#32].all
        (fun i => !WellFormed Config.default i) = true := by decide

theorem test_wf_memory :
    [Instr.lbMem 0x800000#32, .sbMem 0x800000#32 0#8, .lhMem 0x101#32, .shMem 0x800000#32 0#16, .lwMem 0x102#32,
      .swMem 0x04300000#32 0#32, .ldMem 0x104#32, .sdMem 0x800000#32 0#64].all
        (fun i => !WellFormed Config.default i) = true := by decide

theorem test_wf_ranges :
    [Instr.extR 0x04100000#32 .w4, .extR 0x04000002#32 .w4, .extW 0x100#32 (.w 0#32), .unmappedR 0x7FFFFFFF#32 .w1,
      .unmappedW 0x80000001#32 (.h 0#16)].all (fun i => !WellFormed Config.default i) = true := by decide

theorem test_wf_refusals :
    [Instr.refuseUnsupportedWidth (.read 0x04300000#32 .w4), .refuseUnsupportedWidth (.read 0x100#32 .w2),
      .refuseUnsupportedWidth (.read 0x04300001#32 .w2), .refuseMisalignedBusAccess (.read 0x104#32 .w4),
      .refuseUnknownPortOp 0x01000000#32, .refuseUnknownPortOp 0x10000004#32].all
        (fun i => !WellFormed Config.default i) = true := by decide

/-! ## Decoding: words written out from R71, R100, R103, R106, R108, R110, R112 and R113 -/

/-- A 4-byte read, a 4-byte write, a port word, decoded under the default parameters. -/
def rd (a : Word) : Instr := decode Config.default (.bus (.read a .w4))
def wr (a v : Word) : Instr := decode Config.default (.bus (.write a (.w v)))
def pt (w : Word) : Instr := decode Config.default (.port w 0)

theorem test_decode_mi :
    [wr 0x04300000#32 1#32, rd 0x04300000#32, wr 0x04300004#32 1#32, rd 0x04300004#32, wr 0x04300008#32 1#32,
      rd 0x04300008#32, wr 0x0430000C#32 1#32, rd 0x0430000C#32, rd 0x04300010#32, wr 0x043FFFFC#32 5#32] =
    [.swMiMode 1#32, .lwMiMode, .swMiVersion 1#32, .lwMiVersion, .swMiIntr 1#32, .lwMiIntr, .swMiMaskWholesale 1#32,
      .lwMiMask, .lwMiReserved 0x10#20, .swMiReserved 0xFFFFC#20 5#32] ∧
    decode { Config.default with miMaskWrite := .bitpair } (.bus (.write 0x0430000C#32 (.w 1#32)))
      = .swMiMaskBitpair 1#32 := by decide

theorem test_decode_ai :
    [wr 0x04500000#32 1#32, rd 0x04500000#32, wr 0x04500004#32 1#32, rd 0x04500004#32, wr 0x04500008#32 1#32,
      rd 0x04500008#32, wr 0x0450000C#32 1#32, rd 0x0450000C#32, wr 0x04500010#32 1#32, rd 0x04500010#32,
      wr 0x04500014#32 1#32, rd 0x04500014#32, rd 0x04500018#32, wr 0x045FFFFC#32 5#32] =
    [.swAiDramAddr 1#32, .lwAiDramAddr, .swAiLen 1#32, .lwAiLen, .swAiControl 1#32, .lwAiControl, .swAiStatus 1#32,
      .lwAiStatus, .swAiDacrate 1#32, .lwAiDacrate, .swAiBitrate 1#32, .lwAiBitrate, .lwAiReserved 0x18#20,
      .swAiReserved 0xFFFFC#20 5#32] := by decide

theorem test_decode_si :
    [wr 0x04800000#32 1#32, rd 0x04800000#32, wr 0x04800004#32 1#32, rd 0x04800004#32, wr 0x04800010#32 1#32,
      rd 0x04800010#32, wr 0x04800018#32 1#32, rd 0x04800018#32, rd 0x04800008#32, wr 0x0480000C#32 5#32,
      rd 0x04800014#32, rd 0x0480001C#32] =
    [.swSiDramAddr 1#32, .lwSiDramAddr, .swSiPifAdRd64b 1#32, .lwSiPifAdRd64b, .swSiPifAdWr64b 1#32, .lwSiPifAdWr64b,
      .swSiStatus 1#32, .lwSiStatus, .lwSiReserved 0x08#20, .swSiReserved 0x0C#20 5#32, .lwSiReserved 0x14#20,
      .lwSiReserved 0x1C#20] := by decide

theorem test_decode_dpc :
    [wr 0x04100000#32 1#32, rd 0x04100000#32, wr 0x04100004#32 1#32, rd 0x04100004#32, wr 0x04100008#32 1#32,
      rd 0x04100008#32, wr 0x0410000C#32 1#32, rd 0x0410000C#32, wr 0x04100010#32 1#32, rd 0x04100010#32,
      wr 0x04100014#32 1#32, rd 0x04100014#32, wr 0x04100018#32 1#32, rd 0x04100018#32, wr 0x0410001C#32 1#32,
      rd 0x0410001C#32, rd 0x04100020#32, wr 0x041FFFFC#32 5#32] =
    [.swDpcStart 1#32, .lwDpcStart, .swDpcEnd 1#32, .lwDpcEnd, .swDpcCurrent 1#32, .lwDpcCurrent, .swDpcStatus 1#32,
      .lwDpcStatus, .swDpcClock 1#32, .lwDpcClock, .swDpcBufbusy 1#32, .lwDpcBufbusy, .swDpcPipebusy 1#32,
      .lwDpcPipebusy, .swDpcTmem 1#32, .lwDpcTmem, .lwDpcReserved 0x20#20, .swDpcReserved 0xFFFFC#20 5#32] := by decide

theorem test_decode_ri :
    [wr 0x04700000#32 1#32, rd 0x04700000#32, wr 0x04700004#32 1#32, rd 0x04700004#32, wr 0x04700008#32 1#32,
      rd 0x04700008#32, wr 0x0470000C#32 1#32, rd 0x0470000C#32, wr 0x04700010#32 1#32, rd 0x04700010#32,
      wr 0x04700014#32 1#32, rd 0x04700014#32, wr 0x04700018#32 1#32, rd 0x04700018#32, wr 0x0470001C#32 1#32,
      rd 0x0470001C#32, rd 0x04700020#32, wr 0x047FFFFC#32 5#32] =
    [.swRiMode 1#32, .lwRiMode, .swRiConfig 1#32, .lwRiConfig, .swRiCurrentLoad 1#32, .lwRiCurrentLoad,
      .swRiSelect 1#32, .lwRiSelect, .swRiRefresh 1#32, .lwRiRefresh, .swRiLatency 1#32, .lwRiLatency,
      .swRiRerror 1#32, .lwRiRerror, .swRiWerror 1#32, .lwRiWerror, .lwRiReserved 0x20#20,
      .swRiReserved 0xFFFFC#20 5#32] := by decide

theorem test_decode_memory :
    [decode Config.default (Script.lb 0x007FFFFF#32), decode Config.default (Script.sb 0#32 1#8),
      decode Config.default (Script.lh 0x102#32), decode Config.default (Script.sh 0x102#32 1#16), rd 0x007FFFFC#32,
      wr 0x100#32 1#32, decode Config.default (Script.ld 0x007FFFF8#32), decode Config.default (Script.sd 8#32 1#64),
      rd 0x1FC007C0#32, wr 0x1FC007FC#32 1#32] =
    [.lbMem 0x007FFFFF#32, .sbMem 0#32 1#8, .lhMem 0x102#32, .shMem 0x102#32 1#16, .lwMem 0x007FFFFC#32,
      .swMem 0x100#32 1#32, .ldMem 0x007FFFF8#32, .sdMem 8#32 1#64, .lwPifRam 0#4, .swPifRam 15#4 1#32] := by decide

/-- The first and the last address of each external and unmapped range of R71 (BV-7, BV-8, BV-9, BV-19). -/
theorem test_decode_ranges :
    [rd 0x03F00000#32, rd 0x040FFFFC#32, rd 0x04200000#32, rd 0x044FFFFC#32, wr 0x04600000#32 1#32, rd 0x05000000#32,
      rd 0x1FC007BC#32, rd 0x1FD00000#32, rd 0x7FFFFFFC#32] =
    [.extR 0x03F00000#32 .w4, .extR 0x040FFFFC#32 .w4, .extR 0x04200000#32 .w4, .extR 0x044FFFFC#32 .w4,
      .extW 0x04600000#32 (.w 1#32), .extR 0x05000000#32 .w4, .extR 0x1FC007BC#32 .w4, .extR 0x1FD00000#32 .w4,
      .extR 0x7FFFFFFC#32 .w4] ∧
    [rd 0x00800000#32, rd 0x03EFFFFC#32, rd 0x04900000#32, wr 0x04FFFFFC#32 1#32, rd 0x1FC00800#32, rd 0x1FCFFFFC#32,
      rd 0x80000000#32, decode { Config.default with rdramSize := .mib4 } (.bus (.read 0x00400000#32 .w4))] =
    [.unmappedR 0x00800000#32 .w4, .unmappedR 0x03EFFFFC#32 .w4, .unmappedR 0x04900000#32 .w4,
      .unmappedW 0x04FFFFFC#32 (.w 1#32), .unmappedR 0x1FC00800#32 .w4, .unmappedR 0x1FCFFFFC#32 .w4,
      .unmappedR 0x80000000#32 .w4, .unmappedR 0x00400000#32 .w4] := by decide

/-- BV-15, BV-16 and BV-17: the alignment test comes before the width test. -/
theorem test_decode_refusals :
    [decode Config.default (Script.sb 0x04300000#32 1#8), decode Config.default (Script.lh 0x1FC007C2#32),
      decode Config.default (Script.ld 0x1FC007C0#32), rd 0x102#32, rd 0x04300002#32,
      decode Config.default (Script.ld 4#32), decode Config.default (Script.lh 0x04900001#32)] =
    [.refuseUnsupportedWidth (.write 0x04300000#32 (.b 1#8)), .refuseUnsupportedWidth (.read 0x1FC007C2#32 .w2),
      .refuseUnsupportedWidth (.read 0x1FC007C0#32 .w8), .refuseMisalignedBusAccess (.read 0x102#32 .w4),
      .refuseMisalignedBusAccess (.read 0x04300002#32 .w4), .refuseMisalignedBusAccess (.read 4#32 .w8),
      .refuseMisalignedBusAccess (.read 0x04900001#32 .w2)] := by decide

/-- PV-1 .. PV-8 and R113. -/
theorem test_decode_ports :
    [pt 0x01000000#32, decode Config.default (Script.adv 64), pt 0x03000000#32, pt 0x10000000#32, pt 0x10000003#32,
      pt 0x10000004#32, pt 0x11000003#32, pt 0x20000000#32, pt 0x21000000#32, pt 0x22000000#32, pt 0x23000000#32,
      pt 0x24000000#32, pt 0x25000000#32] =
    [.portQueryIrq, .portAdvance 64, .portConstruct, .portRaiseSource .sp, .portRaiseSource .vi, .portRaiseSource .pi,
      .portClearSource .vi, .portQueryCmdReady, .portQueryFrameFinished, .portExportWords, .portExportRowLengths,
      .portClearCommands, .portClearFrameFinished] ∧
    [0x04000000#32, 0x01000001#32, 0x01000100#32, 0x10000001#32, 0x11000005#32, 0x26000000#32].all
      (fun w => pt w == .refuseUnknownPortOp w) = true := by decide

/-! ## Single operations -/

/-- A field of the next state, if there is one. -/
def get {α : Type} (r : Result) (f : State → α) : Option α :=
  match r with
  | .next t => some (f t)
  | .fault _ => none
  | .refused _ => none

/-- The next state, and the fault, if there is one. -/
def nextOf (r : Result) : Option State := get r id
def faultOf (r : Result) : Option Fault :=
  match r with
  | .next _ => none
  | .fault f => some f
  | .refused _ => none

/-- The reset state with parts replaced. -/
def withCause (c m : BitVec 6) : State := State.reset.withMi { State.reset.mi with cause := c, mask := m }
def withFifo (fifo : List AudioSlot) (elapsed : Nat) : State :=
  State.reset.withAi { State.reset.ai with fifo := fifo, ready := decide (fifo.length < 2), elapsed := elapsed }
def withPif (bs : List Byte) : State := State.reset.withSi { State.reset.si with pifRam := pifWriteBytes State.reset.si.pifRam 0 bs }
def withRows (rows : List (List Word)) (finished : Bool) : State :=
  State.reset.withDpc { State.reset.dpc with rows := rows, cmdReady := decide (rows ≠ []), frameFinished := finished }
def busySi (cost elapsed : Nat) : State :=
  State.reset.withSi { State.reset.si with dmaBusy := true, dir := some .read, cost := cost, elapsed := elapsed }
/-- The default parameters with the test vectors' HostPad(0). -/
def padded (s : State) : State := { s with cfg := { s.cfg with joybus := .standardController (some 0x80000AF6#32) } }

/-- MV-2, MV-4 (on a DP cause) and MV-5. -/
theorem test_miMode_write :
    get (exec (.swMiMode 0x47F#32) State.reset) (fun t => t.mi) = some ⟨0, 0, 0x7F, false, true, false⟩ ∧
    get (exec (.swMiMode 0x3FFF#32) (withCause 0x24#6 0#6)) (fun t => t.mi) = some ⟨0x04#6, 0, 0x7F, true, true, true⟩ ∧
    get (exec (.swMiMode 0x980#32) State.reset) (fun t => t.mi) = some ⟨0, 0, 0, true, false, false⟩ := by decide

/-- MV-6: the clear half of each pair; and bits 31:14 are ignored. -/
theorem test_miMode_clears :
    get (exec (.swMiMode 0x1280#32) (State.reset.withMi ⟨0, 0, 0x7F, true, true, true⟩)) (fun t => t.mi)
      = some ⟨0, 0, 0, false, false, false⟩ ∧
    get (exec (.swMiMode 0xFFFFC000#32) State.reset) (fun t => t.mi) = some State.reset.mi := by decide

/-- MV-4's read, R133, IV-4, KV-3's read. -/
theorem test_mi_reads :
    get (exec .lwMiMode (State.reset.withMi ⟨0, 0, 0x7F, true, true, true⟩)) (·.answer) = some (.data (.w 0x3FF#32)) ∧
    get (exec .lwMiVersion State.reset) (·.answer) = some (.data (.w 0x02020102#32)) ∧
    get (exec .lwMiIntr (withCause 0x04#6 0#6)) (·.answer) = some (.data (.w 4#32)) ∧
    get (exec .lwMiMask (withCause 0#6 0x26#6)) (·.answer) = some (.data (.w 0x26#32)) := by decide

/-- KV-1, KV-2, KV-3. -/
theorem test_mask_wholesale :
    [(0x00#6, 0x0AAA#32), (0x2A#6, 0xFFFFFFC0#32), (0x00#6, 0x26#32)].map
      (fun p => get (exec (.swMiMaskWholesale p.2) (withCause 0#6 p.1)) (fun t => t.mi.mask))
      = [some 0x2A#6, some 0x00#6, some 0x26#6] := by decide

/-- KV-4 .. KV-9. -/
theorem test_mask_bitpair :
    [(0x00#6, 0x0AAA#32), (0x3F#6, 0x0555#32), (0x00#6, 0x0FFF#32), (0x3F#6, 0x0001#32), (0x01#6, 0x0A01#32),
      (0x15#6, 0#32)].map
      (fun p => get (exec (.swMiMaskBitpair p.2) (withCause 0#6 p.1)) (fun t => t.mi.mask))
      = [some 0x3F#6, some 0x00#6, some 0x3F#6, some 0x3E#6, some 0x30#6, some 0x15#6] := by decide

/-- IV-2. -/
theorem test_queryIrq :
    [(0x00#6, 0x3F#6), (0x3F#6, 0x00#6), (0x3F#6, 0x3F#6), (0x21#6, 0x20#6), (0x21#6, 0x1E#6), (0x06#6, 0x04#6),
      (0x2A#6, 0x15#6), (0x15#6, 0x15#6)].map (fun p => get (exec .portQueryIrq (withCause p.1 p.2)) (·.answer))
      = [false, false, true, true, false, true, false, true].map (fun b => some (.flag b)) := by decide

/-- IV-3 and PV-6. -/
theorem test_sources :
    get (exec (.portRaiseSource .vi) (withCause 0#6 0x08#6)) (fun t => (t.mi.cause, irqPending t)) = some (0x08#6, true) ∧
    get (exec (.portRaiseSource .pi) State.reset) (fun t => t.mi.cause) = some 0x10#6 ∧
    get (exec (.portRaiseSource .sp) (withCause 0x01#6 0#6)) (fun t => t.mi.cause) = some 0x01#6 ∧
    get (exec (.portClearSource .vi) (withCause 0x3F#6 0x08#6)) (fun t => t.mi.cause) = some 0x37#6 := by decide

/-- AV-1, rows of both rates, the longest among them. -/
theorem test_duration :
    [(0x0000#18, 0#14), (0x0008#18, 0#14), (0x0040#18, 0#14), (0x2000#18, 0#14), (0x0040#18, 0x450#14),
      (0x2000#18, 0x450#14), (0x0800#18, 0x89D#14), (0x3FFF8#18, 0x3FFF#14)].map
      (fun p => Config.default.duration p.1 p.2 0xF#4)
      = [0, 3, 30, 3943, 34048, 4358188, 2175193, 2067927465] := by decide

/-- AV-2: an accepted push. -/
theorem test_audio_push :
    get (exec (.swAiLen 0x10#32) (State.reset.withAi { State.reset.ai with dramAddr := 0x1000#24 }))
      (fun t => (t.ai.fifo, t.ai.ready, t.events))
      = some ([⟨0x1000#24, 0x10#18, 7⟩], true, [.audioOut 0x1000#24 0x10#18 48681812 (List.replicate 16 0#8)]) := by decide

/-- AV-3: a push that fills the FIFO, and one that finds it full. -/
theorem test_audio_full :
    get (exec (.swAiLen 0#32) (withFifo [⟨0, 8, 3⟩] 1)) (fun t => (t.ai.fifo.length, t.ai.ready, t.ai.elapsed))
      = some (2, false, 1) ∧
    get (exec (.swAiLen 0x2007#32) (withFifo [⟨0, 8, 3⟩, ⟨0, 8, 3⟩] 1))
      (fun t => (t.ai.fifo.length, t.ai.ready, t.ai.len, t.events)) = some (2, false, 0x2000#18, []) := by decide

/-- AV-10, the written fields. -/
theorem test_ai_writes :
    get (exec (.swAiDramAddr 0x80123457#32) State.reset) (fun t => t.ai.dramAddr) = some 0x123450#24 ∧
    get (exec (.swAiControl 0xFFFFFFFE#32) State.reset) (fun t => t.ai.enable) = some false ∧
    get (exec (.swAiControl 3#32) State.reset) (fun t => t.ai.enable) = some true ∧
    get (exec (.swAiDacrate 0xFFFFC450#32) State.reset) (fun t => (t.ai.dacrate, t.ai.freq)) = some (0x450#14, 44055) ∧
    get (exec (.swAiBitrate 0x13#32) State.reset) (fun t => t.ai.bitrate) = some 3#4 := by decide

/-- AV-11. -/
theorem test_ai_acknowledge :
    get (exec (.swAiStatus 0x1234#32) ((withFifo [⟨0, 8, 3⟩, ⟨0, 8, 3⟩] 1).withMi { State.reset.mi with cause := 0x3F#6 }))
      (fun t => (t.mi.cause, t.ai.fifo.length, t.ai.ready, t.ai.elapsed)) = some (0x3B#6, 2, false, 1) := by decide

/-- AV-4 and AV-10, the words read. -/
theorem test_ai_reads :
    get (exec .lwAiStatus ((withFifo [⟨0, 8, 3⟩, ⟨0, 8, 3⟩] 0).withAi
      { (withFifo [⟨0, 8, 3⟩, ⟨0, 8, 3⟩] 0).ai with enable := true })) (·.answer) = some (.data (.w 0xC2000001#32)) ∧
    get (exec .lwAiStatus (withFifo [⟨0, 8, 3⟩] 0)) (·.answer) = some (.data (.w 0x40000000#32)) ∧
    [Instr.lwAiDramAddr, .lwAiLen, .lwAiControl, .lwAiDacrate, .lwAiBitrate].map
      (fun i => get (exec i (State.reset.withAi { State.reset.ai with
        dramAddr := 0xFFFFF8#24, len := 0x3FFF8#18, enable := true, dacrate := 0x3FFF#14, bitrate := 0xF#4 })) (·.answer))
      = [0xFFFFF8#32, 0x3FFF8#32, 1#32, 0x3FFF#32, 0xF#32].map (fun w => some (.data (.w w))) := by decide

/-- AV-5 (a), (c): the counter reaches the duration exactly, and passes it; AV-7: a slot of length 0. -/
theorem test_audio_advance :
    get (exec (.portAdvance 1) (withFifo [⟨0, 0x40, 30⟩] 28)) (fun t => (t.ai.fifo.length, t.ai.elapsed, t.mi.cause))
      = some (1, 29, 0#6) ∧
    get (exec (.portAdvance 1) (withFifo [⟨0, 0x40, 30⟩, ⟨0, 8, 3⟩] 29))
      (fun t => (t.ai.fifo, t.ai.ready, t.ai.elapsed, t.mi.cause)) = some ([⟨0, 8, 3⟩], true, 0, 0x04#6) ∧
    get (exec (.portAdvance 0) (withFifo [⟨0, 0, 0⟩] 0)) (fun t => (t.ai.fifo, t.mi.cause)) = some ([], 0x04#6) := by decide

/-- TV-1: both engines complete in one advance; XV-1: nothing pending, nothing changes. -/
theorem test_advance_both :
    get (exec (.portAdvance 4) ((withFifo [⟨0, 8, 10⟩] 8).withSi (busySi 64 60).si))
      (fun t => (t.ai.fifo, t.si.dmaBusy, t.si.intr, t.si.dir, t.mi.cause)) = some ([], false, true, none, 0x06#6) ∧
    nextOf (exec (.portAdvance 1000) State.reset) = some State.reset := by decide

/-- SV-15, R204, the example of R205, R213's example. -/
theorem test_si_registers :
    get (exec (.swSiDramAddr 0xFF123457#32) State.reset) (fun t => t.si.dramAddr) = some 0x123450#24 ∧
    get (exec .lwSiDramAddr (State.reset.withSi { State.reset.si with dramAddr := 0x123450#24 })) (·.answer)
      = some (.data (.w 0x123450#32)) ∧
    [Instr.lwSiPifAdRd64b, .lwSiPifAdWr64b].map
      (fun i => get (exec i (State.reset.withSi { State.reset.si with pifAddr := 0x1FC007C0#32 })) (·.answer))
      = List.replicate 2 (some (.data (.w 0x1FC007C0#32))) ∧
    get (exec .lwSiStatus (State.reset.withSi { (busySi 64 0).si with intr := true })) (·.answer)
      = some (.data (.w 0x1001#32)) := by decide

/-- SV-3: an acknowledge while busy. -/
theorem test_si_acknowledge :
    get (exec (.swSiStatus 0#32) ((withCause 0x3F#6 0#6).withSi { (busySi 64 5).si with intr := true }))
      (fun t => (t.mi.cause, t.si.intr, t.si.dmaBusy, t.si.elapsed)) = some (0x3D#6, false, true, 5) := by decide

/-- SV-1: a request while busy changes nothing. -/
theorem test_si_busy :
    nextOf (exec (.swSiPifAdRd64b 0x1FC007C0#32) (busySi 64 5)) = some (busySi 64 5) ∧
    nextOf (exec (.swSiPifAdWr64b 0x1FC007C0#32) (busySi 64 5)) = some (busySi 64 5) := by decide

/-- The next PIF RAM's first n bytes and channel number after a READ request. -/
def readPif (n : Nat) (bs : List Byte) : Option (List Byte × Nat) :=
  get (exec (.swSiPifAdRd64b 0x1FC007C0#32) (padded (withPif bs))) (fun t => (t.si.pifRam.toList.take n, t.si.channel))

set_option maxRecDepth 4000

/-- SV-5, SV-6. -/
theorem test_si_controller :
    readPif 9 [0xFF, 0x01, 0x04, 0x01, 0xFF, 0xFF, 0xFF, 0xFF, 0xFE]
      = some ([0xFF, 0x01, 0x04, 0x01, 0x80, 0x00, 0x0A, 0xF6, 0xFE], 1) ∧
    readPif 8 [0xFF, 0x01, 0x03, 0x00, 0xFF, 0xFF, 0xFF, 0xFE]
      = some ([0xFF, 0x01, 0x03, 0x00, 0x05, 0x00, 0x02, 0xFE], 1) := by decide

/-- SV-7, SV-8. -/
theorem test_si_channels :
    readPif 11 [0x00, 0x00, 0xFF, 0x01, 0x04, 0x01, 0xFF, 0xFF, 0xFF, 0xFF, 0xFE]
      = some ([0x00, 0x00, 0xFF, 0x01, 0x84, 0x01, 0xFF, 0xFF, 0xFF, 0xFF, 0xFE], 3) ∧
    readPif 10 [0x00, 0x00, 0x00, 0x00, 0x00, 0x00, 0x01, 0x04, 0x01, 0xFE]
      = some ([0x00, 0x00, 0x00, 0x00, 0x00, 0x00, 0x01, 0x04, 0x01, 0xFE], 6) := by decide

/-- SV-9, SV-10: a frame that does not fit; all padding, with a control byte. -/
theorem test_si_scan_ends :
    readPif 64 (List.replicate 60 0xFF ++ [0x01, 0x04, 0x01, 0x00])
      = some (List.replicate 60 0xFF ++ [0x01, 0x04, 0x01, 0x00], 0) ∧
    readPif 64 (List.replicate 63 0xFF ++ [0x01]) = some (List.replicate 63 0xFF ++ [0x01], 0) := by decide

/-- SV-11, SV-12: an answer cut, an answer padded, an RX byte with bit 7 set. -/
theorem test_si_answer_length :
    readPif 7 [0xFF, 0x01, 0x02, 0x01, 0xFF, 0xFF, 0xFE] = some ([0xFF, 0x01, 0x02, 0x01, 0x80, 0x00, 0xFE], 1) ∧
    readPif 11 [0xFF, 0x01, 0x06, 0x01, 0xFF, 0xFF, 0xFF, 0xFF, 0xFF, 0xFF, 0xFE]
      = some ([0xFF, 0x01, 0x06, 0x01, 0x80, 0x00, 0x0A, 0xF6, 0x00, 0x00, 0xFE], 1) ∧
    readPif 9 [0xFF, 0x01, 0x84, 0x01, 0xFF, 0xFF, 0xFF, 0xFF, 0xFE]
      = some ([0xFF, 0x01, 0x84, 0x01, 0x80, 0x00, 0x0A, 0xF6, 0xFE], 1) := by decide

/-- SV-14, the READ half: bytes 0 .. 31 reach the last 32 bytes of the image, the others are dropped. -/
theorem test_si_read_edge :
    get (exec (.swSiPifAdRd64b 0x1FC007C0#32)
        ((withPif (List.replicate 63 0xFF ++ [0x01])).withSi
          { (withPif (List.replicate 63 0xFF ++ [0x01])).si with dramAddr := 0x7FFFE0#24 }))
      (fun t => (t.mem.map (·.1), t.mem.all (fun p => p.2 == 0xFF#8), t.si.cost, t.si.elapsed, t.si.dir))
      = some ((List.range 32).map (0x7FFFE0 + ·), true, 64, 0, some .read) := by decide

/-- SV-13, SV-14, the WRITE half. -/
theorem test_si_write_request :
    get (exec (.swSiPifAdWr64b 0x1FC007C0#32)
        ({ (withPif (List.replicate 64 0x55)) with mem := [(0x1000, 0xAB#8), (0x103F, 0xCD#8)] }.withSi
          { (withPif (List.replicate 64 0x55)).si with dramAddr := 0x1000#24, channel := 4 }))
      (fun t => (t.si.pifRam.toList, t.si.channel, t.si.dir, t.si.cost, t.si.dmaBusy))
      = some ([0xAB#8] ++ List.replicate 62 0x00 ++ [0xCD#8], 0, some .write, 64, true) ∧
    get (exec (.swSiPifAdWr64b 0#32)
        ((withPif (List.replicate 64 0x55)).withSi
          { (withPif (List.replicate 64 0x55)).si with dramAddr := 0x7FFFE0#24 }))
      (fun t => t.si.pifRam.toList) = some (List.replicate 64 0x00) := by decide

/-- BV-13, BV-14, R160's example. -/
theorem test_pif_access :
    get (exec (.swPifRam 0#4 0xFF010401#32) State.reset) (fun t => t.si.pifRam.toList.take 5)
      = some [0xFF, 0x01, 0x04, 0x01, 0x00] ∧
    get (exec (.lwPifRam 15#4) (withPif (List.replicate 63 0x00 ++ [0x01]))) (·.answer) = some (.data (.w 1#32)) := by decide

/-- The memory of spec/95 section 2.5, cut to the words each test reads. -/
def commands : Memory :=
  [(0x3000, 0xE7#8), (0x3008, 0xF7#8), (0x300C, 0xFF#8), (0x300D, 0xFF#8), (0x300E, 0xFF#8), (0x300F, 0xFF#8),
    (0x3010, 0xE4#8), (0x3018, 0xE9#8), (0x3020, 0xE9#8)]

/-- DV-1: one row, whose last command is not finished. -/
theorem test_dpc_row :
    get (exec (.swDpcEnd 0x3018#32) ({ State.reset with mem := commands }.withDpc { State.reset.dpc with current := 0x3000#24 }))
      (fun t => (t.dpc.rows, t.dpc.skip, t.dpc.cmdReady, t.dpc.frameFinished, t.dpc.current))
      = some ([[0xE7000000#32, 0#32, 0xF7000000#32, 0xFFFFFFFF#32, 0xE4000000#32, 0#32]], 2, true, false, 0x3018#24) := by
  decide

/-- DV-2: the rest of the command is skipped, then the sync ends the frame. -/
theorem test_dpc_sync :
    get (exec (.swDpcEnd 0x3028#32) ({ State.reset with mem := commands }.withDpc
        { State.reset.dpc with current := 0x3018#24, skip := 2, rows := [[1#32, 2#32]], cmdReady := true }))
      (fun t => (t.dpc.rows, t.dpc.skip, t.dpc.frameFinished, t.mi.cause))
      = some ([[1#32, 2#32], [0xE9000000#32, 0#32, 0xE9000000#32, 0#32]], 0, true, 0x20#6) := by decide

/-- DV-4: an empty and a backward range; the hold of DV-5. -/
theorem test_dpc_empty :
    get (exec (.swDpcEnd 0x3010#32) (State.reset.withDpc { State.reset.dpc with current := 0x3010#24 }))
      (fun t => (t.dpc.rows, t.dpc.cmdReady, t.dpc.current)) = some ([], false, 0x3010#24) ∧
    get (exec (.swDpcEnd 0x3000#32) (State.reset.withDpc { State.reset.dpc with current := 0x3010#24 }))
      (fun t => (t.dpc.rows, t.dpc.finish, t.dpc.current)) = some ([], 0x3000#24, 0x3000#24) ∧
    faultOf (exec (.swDpcEnd 0#32) (withRows [] true)) = some .heldDpcEnd := by decide

/-- DV-7, DV-8: a long command and its data words; bits 31:30 are not the id's. -/
theorem test_scan :
    scanRow Config.default 0 ([0x08000000#32] ++ List.replicate 7 0xE9000000#32 ++ [0xE9000000#32, 0#32]) = (0, true) ∧
    scanRow Config.default 0 ([0x08000000#32] ++ List.replicate 7 0xE9000000#32) = (0, false) ∧
    scanRow Config.default 0 [0x29000000#32] = (1, true) ∧ scanRow Config.default 0 [0xC9000000#32] = (11, false) := by
  decide

/-- DV-15, DV-3, DV-12. -/
theorem test_dpc_writes :
    get (exec (.swDpcStart 0x00200004#32) (State.reset.withDpc { State.reset.dpc with skip := 2 }))
      (fun t => (t.dpc.start, t.dpc.current, t.dpc.skip)) = some (0x200000#24, 0x200000#24, 2) ∧
    [((false, false, false), 0x3#32), ((false, false, false), 0x2A#32), ((true, true, true), 0x15#32),
      ((true, false, false), 0x3C0#32)].map
      (fun p => get (exec (.swDpcStatus p.2) (State.reset.withDpc
        { State.reset.dpc with xbus := p.1.1, freeze := p.1.2.1, flush := p.1.2.2 }))
        (fun t => (t.dpc.xbus, t.dpc.freeze, t.dpc.flush)))
      = [some (true, false, false), some (true, true, true), some (false, false, false), some (true, false, false)] := by
  decide

/-- DV-12, DV-14, R245, R246, R247. -/
theorem test_dpc_reads :
    [Instr.lwDpcStart, .lwDpcEnd, .lwDpcCurrent, .lwDpcStatus, .lwDpcClock, .lwDpcBufbusy, .lwDpcPipebusy, .lwDpcTmem].map
      (fun i => get (exec i (State.reset.withDpc { State.reset.dpc with
        start := 0x200000#24, finish := 0x1010#24, current := 0x1008#24, xbus := true, freeze := true, flush := true }))
        (·.answer))
      = [0x200000#32, 0x1010#32, 0x1008#32, 0x87#32, 0#32, 0#32, 0#32, 0#32].map (fun w => some (.data (.w w))) ∧
    [Instr.swDpcCurrent 0x5000#32, .swDpcClock 1#32, .swDpcBufbusy 1#32, .swDpcPipebusy 1#32, .swDpcTmem 1#32].all
      (fun i => nextOf (exec i State.reset) == some State.reset) = true := by decide

/-- DV-9, the examples of R251 .. R254. -/
theorem test_consumer :
    let s := withRows [[1#32, 2#32], [3#32, 4#32, 5#32, 6#32]] true
    [Instr.portQueryCmdReady, .portQueryFrameFinished, .portExportWords, .portExportRowLengths].map
      (fun i => get (exec i s) (·.answer))
      = [some (.flag true), some (.flag true), some (.words [1#32, 2#32, 3#32, 4#32, 5#32, 6#32]),
          some (.lengths [2, 4])] ∧
    get (exec .portClearCommands s) (fun t => (t.dpc.rows, t.dpc.cmdReady, t.dpc.frameFinished)) = some ([], false, true) ∧
    get (exec .portClearFrameFinished s) (fun t => (t.dpc.rows.length, t.dpc.cmdReady, t.dpc.frameFinished))
      = some (2, true, false) := by decide

/-- RV-1. -/
theorem test_ri :
    [(Instr.swRiMode 0x12345678#32, Instr.lwRiMode), (.swRiConfig 0x12345678#32, .lwRiConfig),
      (.swRiCurrentLoad 0x12345678#32, .lwRiCurrentLoad), (.swRiSelect 0x12345678#32, .lwRiSelect),
      (.swRiRefresh 0x12345678#32, .lwRiRefresh), (.swRiLatency 0x12345678#32, .lwRiLatency),
      (.swRiRerror 0x12345678#32, .lwRiRerror), (.swRiWerror 0x12345678#32, .lwRiWerror)].all
      (fun p => get (exec p.1 State.reset) (fun t => get (exec p.2 t) (·.answer))
        == some (some (.data (.w 0x12345678#32)))) = true := by decide

/-- BV-1, BV-2. -/
theorem test_loads :
    let s := { State.reset with mem := [(0x100, 0x11#8), (0x101, 0x22#8), (0x102, 0x33#8), (0x103, 0x44#8),
      (0x104, 0x55#8), (0x105, 0x66#8), (0x106, 0x77#8), (0x107, 0x88#8)] }
    [Instr.lwMem 0x100#32, .lhMem 0x102#32, .lbMem 0x107#32, .ldMem 0x100#32, .lwMem 0x7FFFFC#32].map
      (fun i => get (exec i s) (·.answer))
      = [Data.w 0x11223344#32, .h 0x3344#16, .b 0x88#8, .d 0x1122334455667788#64, .w 0#32].map (fun d => some (.data d)) := by
  decide

/-- BV-3, BV-4. -/
theorem test_stores :
    get (exec (.sbMem 0x101#32 0xAB#8) { State.reset with mem := [(0x100, 0x11#8), (0x101, 0x22#8)] }) (·.mem)
      = some [(0x100, 0x11#8), (0x101, 0xAB#8)] ∧
    get (exec (.sdMem 8#32 0x0102030405060708#64) State.reset) (·.mem)
      = some [(8, 1#8), (9, 2#8), (10, 3#8), (11, 4#8), (12, 5#8), (13, 6#8), (14, 7#8), (15, 8#8)] ∧
    get (exec (.shMem 8#32 0x00FF#16) { State.reset with mem := [(8, 1#8)] }) (·.mem) = some [(9, 0xFF#8)] ∧
    get (exec (.swMem 0x100#32 0x11223344#32) State.reset) (·.mem)
      = some [(0x100, 0x11#8), (0x101, 0x22#8), (0x102, 0x33#8), (0x103, 0x44#8)] := by decide

/-- BV-10, BV-11, BV-12. -/
theorem test_open_bus :
    let s := { State.reset with cfg := { Config.default with openBus := 0xDEADBEEF#32 } }
    [Instr.unmappedR 0x04900000#32 .w4, .unmappedR 0x04900000#32 .w8, .unmappedR 0x04900002#32 .w2,
      .unmappedR 0x04900003#32 .w1, .lwMiReserved 0x10#20, .lwSiReserved 8#20, .lwRiReserved 0x20#20,
      .lwAiReserved 0x18#20, .lwDpcReserved 0x20#20].map (fun i => get (exec i s) (·.answer))
      = [Data.w 0xDEADBEEF#32, .d 0xDEADBEEFDEADBEEF#64, .h 0xBEEF#16, .b 0xEF#8, .w 0xDEADBEEF#32, .w 0xDEADBEEF#32,
          .w 0xDEADBEEF#32, .w 0xDEADBEEF#32, .w 0xDEADBEEF#32].map (fun d => some (.data d)) ∧
    [Instr.unmappedW 0x90000000#32 (.w 1#32), .swMiReserved 0x10#20 5#32, .swAiReserved 0x18#20 5#32,
      .swSiReserved 8#20 5#32, .swDpcReserved 0x20#20 5#32, .swRiReserved 0x20#20 5#32, .swMiVersion 0#32,
      .swMiIntr 0xFFFFFFFF#32].all (fun i => nextOf (exec i State.reset) == some State.reset) = true := by decide

/-- R154: an external write is an event; BV-7: an external read changes no state of the block. -/
theorem test_external :
    nextOf (exec (.extW 0x04400000#32 (.w 3#32)) State.reset)
      = some { State.reset with events := [.extWrite 0x04400000#32 (.w 3#32)] } ∧
    get (exec (.extR 0x04400010#32 .w4) State.reset) (fun t => { t with answer := .nothing, draws := 0 })
      = some State.reset := by decide

/-- BV-15 and BV-18: the first refusal stays, and the machine goes on. -/
theorem test_refusals :
    let r := RefuseReason.unsupportedWidth 0x04300000#32 .w1
    nextOf (exec (.refuseUnsupportedWidth (.write 0x04300000#32 (.b 1#8))) State.reset)
      = some { State.reset with refused := some r, answer := .refused r } ∧
    get (exec (.refuseMisalignedBusAccess (.read 0x102#32 .w4)) { State.reset with refused := some r })
      (fun t => (t.refused, t.answer)) = some (some r, .refused (.misalignedBusAccess 0x102#32 .w4)) ∧
    get (exec (.refuseUnknownPortOp 0x04000000#32) State.reset) (·.refused)
      = some (some (.unknownPortOp 0x04000000#32)) := by decide

/-- R340, R314, PV-8. -/
theorem test_construct :
    nextOf (exec .portConstruct { (withCause 0x3F#6 0x3F#6) with phase := .absent }) = some State.reset ∧
    faultOf (exec .portConstruct { State.reset with phase := .absent, allocOk := false }) = some .constructionFailure ∧
    get (exec .portConstruct (withCause 0x3F#6 0x3F#6)) (fun t => (t.mi.cause, t.refused))
      = some (0x3F#6, some (.unknownPortOp 0x03000000#32)) := by decide

/-- DV-5 at the queue: the held write and the rest of its CPU step wait, the host's clear goes first. -/
theorem test_step_held :
    let w : Issued := ⟨.steppingLoop, Script.sw 0x04100004#32 0x3028#32⟩
    let a : Issued := ⟨.steppingLoop, Script.adv 5⟩
    let c : Issued := ⟨.host, Script.port 0x25000000#32⟩
    nextOf (step ((withRows [] true).withPending [w, a, c])) = some ((withRows [] false).withPending [w, a]) ∧
    faultOf (step ((withRows [] true).withPending [w, a])) = some .heldDpcEnd ∧
    nextOf (step State.reset) = some State.reset := by decide

/-- R306, item 26 of spec/93: a host's bus write and a host's ADVANCE are no moves; its clear is one, and DRAIN keeps the
consumer's duty. -/
theorem test_issue :
    State.reset.issue ⟨.host, Script.sw 0x04100004#32 0x3028#32⟩ = State.reset ∧
    State.reset.issue ⟨.host, Script.adv 1⟩ = State.reset ∧
    State.reset.issue ⟨.external, Script.port 0x25000000#32⟩ = State.reset ∧
    (State.reset.issue ⟨.host, Script.port 0x25000000#32⟩).pending = [⟨.host, Script.port 0x25000000#32⟩] ∧
    KeepsDrainDuty Script.drain ∧ ¬ KeepsDrainDuty Script.drain.reverse := by decide

/-- An opcode-table word placed for the next step: LW MI_VERSION and PORT QUERY_IRQ. -/
theorem test_withFetchWord :
    get (step (State.reset.withFetchWord 32 0x04300004)) (·.answer) = some (.data (.w 0x02020102#32)) ∧
    get (step (State.reset.withFetchWord 32 0x01000000)) (·.answer) = some (.flag false) ∧
    decodeTableWord 32 0x24000000 = some .portClearCommands ∧ decodeTableWord 16 0 = none := by decide

/-- TV-2's last step: the advance and the query of a CPU step, and the frame run that ends with it. -/
theorem test_frame_run :
    nextOf (runCpuStep ⟨[], 5⟩ (withFifo [⟨0, 8, 5⟩] 0))
      = some { (withFifo [] 0) with mi := { State.reset.mi with cause := 0x04#6 }, answer := .flag false } ∧
    nextOf (runFrame [⟨[], 5⟩, ⟨[], 5⟩] (withRows [[1#32]] true)) = some (withRows [[1#32]] true) := by decide

/-- R308: the run ends right after the DPC_END write that sets the flag, with its CPU step's second DPC_END write, ADVANCE
and QUERY_IRQ pending; R301's loop goes on into that step and is held there. -/
theorem test_frame_end :
    let sync := State.reset.withMem [(0x3000, 0xE9#8)]
    let c : CpuStep := ⟨[.write 0x04100000#32 (.w 0x3000#32), .write 0x04100004#32 (.w 0x3008#32),
      .write 0x04100004#32 (.w 0x3010#32)], 5⟩
    get (runFrameToEnd [c, c] sync) (fun t => (t.dpc.frameFinished, t.dpc.rows, t.pending))
      = some (true, [[0xE9000000#32, 0#32]], c.issued.drop 2) ∧
    faultOf (runFrame [c, c] sync) = some .heldDpcEnd := by decide

/-- R120: DPLIST and DRAIN as the words of R120. -/
theorem test_script :
    Script.dpList 0x3000#32 0x3028#32
      = [.bus (.write 0x04100000#32 (.w 0x3000#32)), .bus (.write 0x04100004#32 (.w 0x3028#32))] ∧
    Script.drain.map (fun r => decode Config.default r)
      = [.portExportWords, .portExportRowLengths, .portClearCommands, .portClearFrameFinished] := by decide

/-! ## Witnesses: for each statement with hypotheses, values that meet them, clause by clause, at the ends of ranges -/

theorem wit_ConstructOnce :
    let s := { State.reset with phase := .absent }
    (s.phase = .absent ∧ s.allocOk = true) ∧
    ({ s with allocOk := false }.phase = .absent ∧ { s with allocOk := false }.allocOk = false) ∧
    State.reset.phase = .live := by decide

theorem wit_MiMaskWrites :
    Config.default.bases = Bases.default ∧ Config.default.miMaskWrite = .wholesale ∧
    { Config.default with miMaskWrite := .bitpair }.bases = Bases.default := by decide

theorem wit_ExternalSources :
    [1#8, 2#8, 5#8, 255#8].all (fun k => k != 0#8 && k != 3#8 && k != 4#8) = true := by decide

/-- Each cause bit is set, and cleared, by some operation on a block that exists. -/
theorem wit_CauseOwnership :
    [(0, Instr.portRaiseSource .sp, State.reset), (1, .portAdvance 4, busySi 64 60), (2, .portAdvance 0, withFifo [⟨0, 0, 0⟩] 0),
      (3, .portRaiseSource .vi, State.reset), (4, .portRaiseSource .pi, State.reset),
      (5, .swDpcEnd 0x3028#32, { State.reset with mem := commands }.withDpc { State.reset.dpc with current := 0x3020#24 })].all
      (fun p => p.2.2.phase == .live && !p.2.2.mi.cause.getLsbD p.1
        && get (exec p.2.1 p.2.2) (fun t => t.mi.cause.getLsbD p.1) == some true) = true ∧
    [(0, Instr.portClearSource .sp), (1, .swSiStatus 0#32), (2, .swAiStatus 0#32), (3, .portClearSource .vi),
      (4, .portClearSource .pi), (5, .swMiMode 0x800#32)].all
      (fun p => get (exec p.2 (withCause 0x3F#6 0#6)) (fun t => t.mi.cause.getLsbD p.1) == some false) = true := by decide

/-- Accepted into 0 and 1 slots, refused with 2 slots, and refused by a gate that no run leaves false with a free slot. -/
theorem wit_AudioPush :
    (State.reset.ai.ready = true ∧ State.reset.ai.fifo.length < 2) ∧
    ((withFifo [⟨0, 8, 3⟩] 0).ai.ready = true ∧ (withFifo [⟨0, 8, 3⟩] 0).ai.fifo.length < 2) ∧
    ¬ ((withFifo [⟨0, 8, 3⟩, ⟨0, 8, 3⟩] 0).ai.ready = true ∧ (withFifo [⟨0, 8, 3⟩, ⟨0, 8, 3⟩] 0).ai.fifo.length < 2) ∧
    ¬ ((State.reset.withAi { State.reset.ai with ready := false }).ai.ready = true ∧
      (State.reset.withAi { State.reset.ai with ready := false }).ai.fifo.length < 2) := by decide

theorem wit_AudioDuration :
    Config.default.audioDuration = .formula ∧ { Config.default with viClock := 1 }.audioDuration = .formula ∧
    1 / ((1#14 : BitVec 14).toNat + 1) = 0 ∧ (0x3FFF8#18).toNat % 8 = 0 ∧ (0#18).toNat % 8 = 0 := by decide

theorem wit_AdvanceEngines :
    State.reset.ai.fifo = [] ∧ (withFifo [⟨0, 8, 3⟩] 1).ai.fifo = ⟨0, 8, 3⟩ :: [] ∧
    (withFifo [⟨0, 8, 3⟩] 1).ai.elapsed + 1 < 3 ∧ 3 ≤ (withFifo [⟨0, 8, 3⟩] 1).ai.elapsed + 2 ∧
    State.reset.si.dmaBusy = false ∧ (busySi 64 60).si.dmaBusy = true ∧
    (busySi 64 60).si.elapsed + 3 < (busySi 64 60).si.cost ∧ (busySi 64 60).si.cost ≤ (busySi 64 60).si.elapsed + 4 := by
  decide

theorem wit_AudioPopTiming :
    ((withFifo [⟨0, 0x40, 30⟩] 0).ai.fifo = ⟨0, 0x40, 30⟩ :: [] ∧ (withFifo [⟨0, 0x40, 30⟩] 0).ai.elapsed = 0 ∧
      (∀ k, k < 3 → 0 < k → ([16, 13].take k).sum < 30) ∧ 30 ≤ [16, 13].sum + 1) ∧
    ((withFifo [⟨0, 0, 0⟩] 0).ai.fifo = ⟨0, 0, 0⟩ :: [] ∧ 0 ≤ ([] : List Nat).sum + 0) := by decide

theorem wit_SerialBusyRejects : (busySi 64 5).si.dmaBusy = true := by decide

/-- The last 32 bytes of the image and the first 32 beyond it. -/
theorem wit_SerialWriteTransaction :
    let s := State.reset.withSi { State.reset.si with dramAddr := 0x7FFFE0#24 }
    s.si.dmaBusy = false ∧ s.si.dramAddr.toNat + 31 < s.cfg.rdramBytes ∧ ¬ s.si.dramAddr.toNat + 32 < s.cfg.rdramBytes := by
  decide

theorem wit_SerialReadTransaction :
    let s := { State.reset.withSi { State.reset.si with dramAddr := 0x7FFFE0#24 } with mem := [(0x7FFFDF, 1#8)] }
    s.si.dmaBusy = false ∧ MemoryInv s.cfg s.mem ∧ s.si.dramAddr.toNat + 31 < s.cfg.rdramBytes ∧
    0x7FFFDF < s.si.dramAddr.toNat ∧ s.cfg.rdramBytes ≤ 0x800000 ∧
    (let r := { State.reset with mem := [(64, 1#8)] };
      MemoryInv r.cfg r.mem ∧ r.si.dramAddr.toNat + 64 ≤ 64) := by decide

theorem wit_ChannelStep :
    let c := { Config.default with joybus := .standardController (some 0x80000AF6#32) }
    58 + 2 + 1 + 2 ≤ 63 ∧ 0 + 2 + 0 + 0 ≤ 63 ∧ joybusDevice c 0 0 [1#8] 2 = some [0x80#8, 0x00#8] ∧
    joybusDevice c 0 1 [1#8] 2 = none ∧ joybusDevice c 0 0 [] 0 = none := by decide

theorem wit_DefaultDevice :
    { Config.default with joybus := .standardController (some 0x80000AF6#32) }.joybus = .standardController (some 0x80000AF6#32) ∧
    Config.default.joybus = .standardController none ∧ 0 < 1 ∧ (0x02#8 ≠ 0x00#8 ∧ 0x02#8 ≠ 0xFF#8 ∧ 0x02#8 ≠ 0x01#8) := by decide

theorem wit_SerialCompletionTiming :
    ((busySi 64 0).si.dmaBusy = true ∧ (busySi 64 0).si.elapsed = 0 ∧ (∀ k, k < 3 → 0 < k → ([40, 23].take k).sum < 64) ∧
      64 ≤ [40, 23].sum + 1) ∧
    ((busySi 0 0).si.dmaBusy = true ∧ (busySi 0 0).si.cost ≤ ([] : List Nat).sum + 0) := by decide

theorem wit_FairAdvancesFinish : Fair (fun _ => 1) := fun n => ⟨n, Nat.le_refl n, Nat.le_refl 1⟩

theorem wit_DpcEndIngest :
    State.reset.dpc.frameFinished = false ∧ State.reset.dpc.xbus = false ∧
    (ingestedRow State.reset 8#24).length = 2 ∧ (ingestedRow State.reset 0#24).length = 0 ∧
    (State.reset.withDpc { State.reset.dpc with xbus := true }).dpc.frameFinished = false := by decide

theorem wit_ScanBoundaries : [1#32, 2#32].length ≤ 2 ∧ ([] : List Word).length ≤ 0 := by decide

theorem wit_DpcEndHeld :
    let s := (withRows [] true).withPending [⟨.steppingLoop, .bus (.write 0x04100004#32 (.w 8#32))⟩, ⟨.steppingLoop, Script.adv 5⟩]
    s.cfg.bases = Bases.default ∧ s.phase = .live ∧ s.dpc.frameFinished = true ∧
    (∀ e ∈ [(⟨.steppingLoop, Script.adv 5⟩ : Issued)], e.agent = .steppingLoop) ∧
    s.pending = ⟨.steppingLoop, .bus (.write 0x04100004#32 (.w 8#32))⟩ :: [⟨.steppingLoop, Script.adv 5⟩] := by decide

/-- Rows appended, rows cleared, the flag set, kept and cleared. -/
theorem wit_HandshakeWindow :
    let sync := { State.reset with mem := commands }.withDpc { State.reset.dpc with current := 0x3020#24 }
    State.reset.phase = .live ∧
    get (exec (.swDpcEnd 8#32) State.reset) (fun t => t.dpc.rows) = some [[0#32, 0#32]] ∧
    get (exec .portClearCommands (withRows [[1#32]] true)) (fun t => t.dpc.rows) = some [] ∧
    get (exec (.swDpcEnd 0x3028#32) sync) (fun t => t.dpc.frameFinished) = some true ∧
    get (exec (.swDpcStart 8#32) (withRows [[1#32]] true)) (fun t => t.dpc.frameFinished) = some true ∧
    get (exec .portClearFrameFinished (withRows [] true)) (fun t => t.dpc.frameFinished) = some false := by decide

theorem wit_RiNoninterference : isRiLoad (.swRiMode 1#32) = false ∧ isRiLoad .lwMiMode = false := by decide

/-- The first and the last place of each width, in both image sizes. -/
theorem wit_MemoryLoads :
    [Instr.lbMem 0#32, .lbMem 0x7FFFFF#32, .lhMem 0x7FFFFE#32, .lwMem 0x7FFFFC#32, .ldMem 0#32, .ldMem 0x7FFFF8#32].all
      (fun i => WellFormed State.reset.cfg i) = true ∧
    WellFormed { Config.default with rdramSize := .mib4 } (.lwMem 0x3FFFFC#32) = true := by decide

theorem wit_MemoryStores :
    MemoryInv State.reset.cfg State.reset.mem ∧ MemoryInv Config.default [(0, 1#8), (0x7FFFFF, 2#8)] ∧
    [Instr.sbMem 0x7FFFFF#32 1#8, .shMem 0x7FFFFE#32 1#16, .swMem 0x7FFFFC#32 1#32, .sdMem 0x7FFFF8#32 1#64].all
      (fun i => WellFormed State.reset.cfg i) = true := by decide

theorem wit_MixedWidths :
    MemoryInv State.reset.cfg State.reset.mem ∧ WellFormed State.reset.cfg (.swMem 0x7FFFFC#32 1#32) = true ∧
    (nextOf (exec (.swMem 0x7FFFFC#32 1#32) State.reset)).isSome = true ∧
    WellFormed State.reset.cfg (.swMem 0x100#32 1#32) = true ∧ (0x100#32).toNat % 8 = 0 ∧
    (nextOf (exec (.swMem 0x100#32 1#32) State.reset)).isSome = true := by decide

theorem wit_OutsideImageStops :
    State.reset.cfg.rdramBytes < (0x800000#32).toNat + 1 ∧ State.reset.cfg.rdramBytes < (0x7FFFFF#32).toNat + 2 ∧
    State.reset.cfg.rdramBytes < (0x7FFFFD#32).toNat + 4 ∧ State.reset.cfg.rdramBytes < (0x7FFFF9#32).toNat + 8 := by decide

theorem wit_RefusalsRecorded :
    State.reset.refused = none ∧ { State.reset with refused := some (.unknownPortOp 0#32) }.refused ≠ none := by decide

theorem wit_RefusalRecordStays :
    State.reset.phase = .live ∧ State.reset.refused = none ∧
    get (exec (.refuseUnknownPortOp 0#32) State.reset) (fun t => t.refused.isSome) = some true ∧
    get (exec .portConstruct State.reset) (fun t => t.refused.isSome) = some true ∧
    (nextOf (exec .lwMiMode { State.reset with refused := some (.unknownPortOp 0#32) })).isSome = true := by decide

theorem wit_ReadsHaveNoSideEffects :
    [0x100#32, 0x00800000#32, 0x04300000#32, 0x1FC007C0#32].map (route Config.default)
      = [.memoryImage, .unmapped, .mi, .pifRam] ∧
    aligned 0x107#32 .w1 = true ∧ aligned 0x00800000#32 .w8 = true ∧ aligned 0x04300000#32 .w4 = true ∧
    aligned 0x04300002#32 .w4 = false := by decide

theorem wit_AddressMapTotal :
    route Config.default 0x04900000#32 = .unmapped ∧ route Config.default 0xFFFFFFF8#32 = .unmapped ∧
    [Width.w1, .w2, .w4, .w8].all (fun n => aligned 0xFFFFFFF8#32 n) = true ∧ State.reset.cfg = Config.default ∧
    aligned 0xFFFFFFF8#32 (Data.d 1#64).width = true ∧ Config.default.bases = Bases.default ∧
    Config.default.rdramSize = .mib8 ∧ { Config.default with rdramSize := .mib4 }.rdramSize = .mib4 ∧
    [0x007FFFFF#32, 0x00800000#32, 0x040FFFFF#32, 0x04100000#32, 0x1FC007BF#32, 0x1FC007FF#32, 0x1FD00000#32].map
      (route Config.default) = [.memoryImage, .unmapped, .external, .dpc, .external, .pifRam, .external] := by decide

theorem wit_BusRefusals :
    Config.default.bases = Bases.default ∧ (BusOp.read 0x04300002#32 .w4).addr.toNat % Width.w4.bytes ≠ 0 ∧
    (BusOp.read 0x04300004#32 .w4).addr.toNat % Width.w4.bytes = 0 ∧
    route Config.default 0x04300002#32 ∈ [.mi, .ai, .si, .dpc, .ri, .pifRam] := by decide

/-- A boundary address or offset for each clause with a condition. -/
theorem wit_DecodeSpecWords :
    Config.default.bases = Bases.default ∧ Config.default.miMaskWrite = .wholesale ∧
    { Config.default with miMaskWrite := .bitpair }.miMaskWrite = .bitpair ∧
    [0x10#20, 0x18#20, 0x08#20, 0x0C#20, 0x14#20, 0x1C#20, 0x20#20, 0xFFFFC#20].all (·.toNat % 4 == 0) = true ∧
    (0x007FFFF8#32).toNat < Config.default.rdramBytes ∧ (0x007FFFF8#32).toNat % 8 = 0 ∧
    (0x1FBFFFF8#32).toNat % Width.w8.bytes = 0 ∧ (0x1FBFFFF8#32).toNat ≤ 0x1FBFFFFF ∧
    (0x80000000#32).toNat % (Data.d 1#64).width.bytes = 0 ∧ 0x80000000 ≤ (0x80000000#32).toNat := by decide

theorem wit_DecodeEncode :
    Config.default.bases = Bases.default ∧ WellFormed Config.default (.swPifRam 15#4 1#32) = true ∧
    WellFormed Config.default (.lwSiReserved 0xFFFFC#20) = true ∧
    WellFormed Config.default (.refuseUnknownPortOp 0xFFFFFFFF#32) = true := by decide

theorem wit_DecodeWellFormed :
    Config.default.bases = Bases.default ∧
    WellFormed Config.default (decode Config.default (.bus (.read 0x7FFFF8#32 .w8))) = true := by decide

theorem wit_EncodeDecode :
    Config.default.bases = Bases.default ∧
    (∀ word t, Request.port 0x02000000#32 64 = .port word t → word ≠ 0x02000000#32 → t = 0) ∧
    (∀ word t, Request.port 0x10000003#32 0 = .port word t → word ≠ 0x02000000#32 → t = 0) ∧
    ∀ word t, Request.bus (.read 0x100#32 .w4) = .port word t → word ≠ 0x02000000#32 → t = 0 := by
  refine ⟨rfl, fun word t h hw => ?_, fun word t h _ => ?_, fun word t h => ?_⟩
  · cases h
    exact absurd rfl hw
  · cases h
    rfl
  · cases h

theorem wit_StepRunsDecoded :
    let e : Issued := ⟨.host, Script.port 0x21000000#32⟩
    let c : Issued := ⟨.host, Script.port 0x03000000#32⟩
    let s := State.reset.withPending [e]
    (s.phase = .live ∧ s.pending = e :: [] ∧ held s (decode s.cfg e.request) = false) ∧
    held State.reset (decode State.reset.cfg (tableRequest (BitVec.ofNat 32 0x04100004))) = false ∧
    State.reset.pending = [] ∧
    ({ s with phase := .absent }.phase = .absent ∧ decode s.cfg e.request ≠ .portConstruct ∧
      decode s.cfg c.request = .portConstruct ∧ held s (decode s.cfg c.request) = false) := by decide

/-- Every move of the host and of the external components that changes something, performed. -/
theorem wit_HostMoves :
    State.reset.phase = .live ∧ Agent.host ≠ .steppingLoop ∧ Agent.external ≠ .steppingLoop ∧
    [0x24000000#32, 0x25000000#32, 0x10000003#32, 0x11000003#32, 0x03000000#32, 0xFF000000#32].all (fun w =>
      mayIssue .host (Script.port w)
        && (nextOf (exec (decode State.reset.cfg (Script.port w)) (withRows [[1#32, 2#32]] true))).isSome) = true ∧
    mayIssue .external (Script.port 0x10000004#32) = true ∧ mayIssue .external (Script.port 0x10000001#32) = true ∧
    mayIssue .external (Script.port 0x24000000#32) = false := by decide

theorem wit_IdleCpuStep : State.reset.phase = .live ∧ State.reset.pending = [] := by decide

theorem wit_EveryOperationCompletes :
    State.reset.phase = .live ∧ WellFormed State.reset.cfg (.ldMem 0x7FFFF8#32) = true ∧
    held State.reset (.ldMem 0x7FFFF8#32) = false ∧ held State.reset (.swDpcEnd 8#32) = false ∧
    held (withRows [] true) (.swDpcStart 8#32) = false := by decide

theorem wit_ParametersFixed :
    (nextOf (exec (.portAdvance 1) State.reset)).isSome = true ∧
    (nextOf (exec .portConstruct { State.reset with phase := .absent })).isSome = true := by decide

/-- A state with work in both engines and a row. -/
def working : State :=
  ((withFifo [⟨0, 8, 3⟩, ⟨0, 8, 3⟩] 1).withSi (busySi 64 60).si).withDpc (withRows [[1#32, 2#32]] true).dpc

/-- The invariant holds after reset and in a state with work in both engines, rows, and an operation to perform. -/
theorem wit_StepKeepsInv :
    Inv State.reset ∧ Inv (working.withPending [⟨.steppingLoop, Script.adv 5⟩]) ∧
    (nextOf (step (working.withPending [⟨.steppingLoop, Script.adv 5⟩]))).isSome = true :=
  ⟨⟨by decide, by decide, by decide, by decide, by decide, by decide⟩,
    ⟨by decide, by decide, by decide, by decide, by decide, by decide⟩, by decide⟩

theorem wit_FreshInv :
    ConfigOk Config.default ∧
    ConfigOk { Config.default with rdramSize := .mib4, memInit := [(0, 1#8), (0x3FFFFF, 2#8)], viClock := 1 } := by decide

theorem wit_ReachableStates : ConfigOk Config.default ∧ Reachable Config.default (State.fresh Config.default) ∧
    ∃ t, Reachable Config.default t ∧ t.ai.elapsed = 0 ∧ t.answer = .flag false := by
  refine ⟨by decide, .fresh, ?_⟩
  refine ⟨{ State.fresh Config.default with answer := .flag false }, ?_, rfl, rfl⟩
  exact .step _ _ (.issue _ ⟨.steppingLoop, Script.port 0x01000000#32⟩ .fresh) (by rfl)

end Sys2Proof.Tests
end

section
/-! PROOFS. No operation changes a parameter (spec/00_scope.md R6, spec/30_encoding.md R116): each shared operation keeps
State.cfg, the eight accesses to the memory image do, and so does every operation that answers a next state. -/

namespace Sys2Proof.Machine

open Sys2Proof

/-! ## The shared operations keep the parameters -/

@[simp] theorem setCause_cfg (k : Source) (s : State) : (setCause k s).cfg = s.cfg := rfl

@[simp] theorem clearCause_cfg (k : Source) (s : State) : (clearCause k s).cfg = s.cfg := rfl

@[simp] theorem constructed_cfg (s : State) : (constructed s).cfg = s.cfg := rfl

@[simp] theorem miModeWrite_cfg (v : Word) (s : State) : (miModeWrite v s).cfg = s.cfg := by
  unfold miModeWrite
  split <;> rfl

@[simp] theorem audioPush_cfg (a : BitVec 24) (len : BitVec 18) (s : State) : (audioPush a len s).cfg = s.cfg := by
  by_cases h : s.ai.ready = true ∧ s.ai.fifo.length < 2
  · rw [audioPush_accepted h]
  · rw [audioPush_refused h]

@[simp] theorem aiLenWrite_cfg (v : Word) (s : State) : (aiLenWrite v s).cfg = s.cfg := by
  rw [aiLenWrite, audioPush_cfg, State.withAi_cfg]

@[simp] theorem audioHandleDma_cfg (t : Nat) (s : State) : (audioHandleDma t s).cfg = s.cfg := by
  cases hf : s.ai.fifo with
  | nil => rw [audioHandleDma_idle hf]
  | cons slot rest =>
    rcases Nat.lt_or_ge (s.ai.elapsed + t) slot.dur with ht | ht
    · rw [audioHandleDma_counts hf ht]
    · rw [audioHandleDma_pops hf ht, setCause_cfg]

@[simp] theorem serialTick_cfg (t : Nat) (s : State) : (serialTick t s).cfg = s.cfg := by
  cases hb : s.si.dmaBusy with
  | false => rw [serialTick_idle hb]
  | true =>
    rcases Nat.lt_or_ge (s.si.elapsed + t) s.si.cost with ht | ht
    · rw [serialTick_counts hb ht]
    · rw [serialTick_completes hb ht, setCause_cfg]

@[simp] theorem advance_cfg (t : Nat) (s : State) : (advance t s).cfg = s.cfg := by
  rw [advance, serialTick_cfg, audioHandleDma_cfg]

@[simp] theorem serialHandleDma_cfg (dir : Dir) (v : Word) (s : State) : (serialHandleDma dir v s).cfg = s.cfg := by
  cases hb : s.si.dmaBusy with
  | true => rw [serialHandleDma_busy hb]
  | false =>
    cases dir with
    | read => rw [serialHandleDma_read hb]
    | write => rw [serialHandleDma_write hb]

@[simp] theorem dpcEndWrite_cfg (v : Word) (s : State) : (dpcEndWrite v s).cfg = s.cfg := by
  rw [dpcEndWrite_eq]

/-! ## The outcomes that are not on every path a next state -/

theorem loadImage_cfg {a : Word} {n : Width} {s t : State} (h : loadImage a n s = .next t) : t.cfg = s.cfg := by
  rcases Nat.lt_or_ge s.cfg.rdramBytes (a.toNat + n.bytes) with hs | hs
  · rw [loadImage_outside hs] at h
    cases h
  · rw [loadImage_inside hs] at h
    cases h
    rfl

theorem storeImage_cfg {a : Word} {d : Data} {s t : State} (h : storeImage a d s = .next t) : t.cfg = s.cfg := by
  rcases Nat.lt_or_ge s.cfg.rdramBytes (a.toNat + d.width.bytes) with hs | hs
  · rw [storeImage_outside hs] at h
    cases h
  · rw [storeImage_inside hs] at h
    cases h
    rfl

theorem execSwDpcEnd_cfg {v : Word} {s t : State} (h : execSwDpcEnd v s = .next t) : t.cfg = s.cfg := by
  unfold execSwDpcEnd at h
  split at h <;> cases h
  exact dpcEndWrite_cfg v s

/-- The block that CONSTRUCT makes has the session's parameters, and a refused CONSTRUCT leaves them (R340). -/
theorem execPortConstruct_cfg {s t : State} (h : execPortConstruct s = .next t) : t.cfg = s.cfg := by
  unfold execPortConstruct at h
  split at h
  · cases h
    rfl
  · split at h <;> cases h
    exact constructed_cfg s

/-! ## Every operation keeps the parameters -/

/-- The operations that remain after the named cases answer the state before with fields other than cfg replaced. -/
theorem exec_cfg {i : Instr} {s t : State} (h : exec i s = .next t) : t.cfg = s.cfg := by
  cases i
  case portConstruct => exact execPortConstruct_cfg h
  case swDpcEnd => exact execSwDpcEnd_cfg h
  case lbMem | lhMem | lwMem | ldMem => exact loadImage_cfg h
  case sbMem | shMem | swMem | sdMem => exact storeImage_cfg h
  case swMiMode v =>
    cases h
    exact miModeWrite_cfg v s
  case swAiLen v =>
    cases h
    exact aiLenWrite_cfg v s
  case swSiPifAdRd64b v | swSiPifAdWr64b v =>
    cases h
    exact serialHandleDma_cfg _ v s
  case portAdvance n =>
    cases h
    exact advance_cfg n s
  all_goals
    cases h
    rfl

/-- Settles O56, by the case split over the operations in `exec_cfg`. -/
theorem parametersFixed : Obligations.ParametersFixed := by
  unfold Obligations.ParametersFixed
  exact fun _ _ _ h => exec_cfg h

end Sys2Proof.Machine
end

section
/-! PROOFS. What an operation that does not answer a next state on every path has done where it answers one: the accesses
to the memory image (R152, R153), the DPC_END write (R241) and CONSTRUCT (R314, R340). -/

namespace Sys2Proof.Machine

open Sys2Proof

theorem loadImage_next {a : Word} {n : Width} {s t : State} (h : loadImage a n s = .next t) :
    t = { s with answer := .data (s.mem.load a.toNat n) } := by
  unfold loadImage at h
  split at h <;> cases h
  rfl

theorem storeImage_next {a : Word} {d : Data} {s t : State} (h : storeImage a d s = .next t) :
    a.toNat + d.width.bytes ≤ s.cfg.rdramBytes ∧ t = { s with mem := s.mem.store a.toNat d, answer := .nothing } := by
  unfold storeImage at h
  split at h
  next ha =>
    cases h
    exact ⟨ha, rfl⟩
  next => cases h

theorem execSwDpcEnd_next {v : Word} {s t : State} (h : execSwDpcEnd v s = .next t) :
    s.dpc.frameFinished = false ∧ t = { dpcEndWrite v s with answer := .nothing } := by
  unfold execSwDpcEnd at h
  split at h
  next => cases h
  next hf =>
    cases h
    exact ⟨Bool.eq_false_iff.2 hf, rfl⟩

/-- Refused where the block exists, else the block as constructed. -/
theorem execPortConstruct_next {s t : State} (h : execPortConstruct s = .next t) :
    (s.phase = .live ∧
      t = { s with
        refused := s.refused.or (some (.unknownPortOp 0x03000000#32))
        answer := .refused (.unknownPortOp 0x03000000#32) }) ∨
    (s.phase = .absent ∧ s.allocOk = true ∧ t = { constructed s with answer := .nothing }) := by
  unfold execPortConstruct at h
  split at h
  next hl =>
    cases h
    exact .inl ⟨hl, rfl⟩
  next hl =>
    split at h
    next ha =>
      cases h
      exact .inr ⟨hl, ha, rfl⟩
    next => cases h

end Sys2Proof.Machine
end

section
/-! PROOFS. Each cause bit changes only through its own source's operations (spec/40_interrupt.md R145): for each
operation the sources it can set and the sources it can clear, and that on a block that exists it changes no other bit. -/

namespace Sys2Proof.Machine

open Sys2Proof

/-- The sources whose cause bit an operation on a block that exists can set (R141, R185, R213, R241). -/
def causesSet : Instr → List Source
  | .portRaiseSource k => [extSource k]
  | .portAdvance _ => [.ai, .si]
  | .swDpcEnd _ => [.dp]
  | _ => []

/-- The sources whose cause bit an operation on a block that exists can clear (R131, R142, R175, R206). -/
def causesCleared : Instr → List Source
  | .portClearSource k => [extSource k]
  | .swSiStatus _ => [.si]
  | .swAiStatus _ => [.ai]
  | .swMiMode v => if v.getLsbD 11 then [.dp] else []
  | _ => []

/-- From the cause word c to d no bit rises but those of the sources `up`, and none falls but those of `down`. -/
def CauseMoves (up down : List Source) (c d : BitVec 6) : Prop :=
  ∀ j, j < 6 →
    (d.getLsbD j = true → c.getLsbD j = true ∨ ∃ k ∈ up, j = k.bit) ∧
    (c.getLsbD j = true → d.getLsbD j = true ∨ ∃ k ∈ down, j = k.bit)

theorem CauseMoves.refl {up down : List Source} (c : BitVec 6) : CauseMoves up down c c :=
  fun _ _ => ⟨.inl, .inl⟩

theorem CauseMoves.trans {up down : List Source} {c d e : BitVec 6} (h₁ : CauseMoves up down c d)
    (h₂ : CauseMoves up down d e) : CauseMoves up down c e := fun j hj =>
  ⟨fun he => ((h₂ j hj).1 he).elim (h₁ j hj).1 .inr, fun hc => ((h₁ j hj).2 hc).elim (h₂ j hj).2 .inr⟩

theorem setCause_moves {up down : List Source} {k : Source} (hk : k ∈ up) (s : State) :
    CauseMoves up down s.mi.cause (setCause k s).mi.cause := by
  intro j _
  simp only [setCause_getLsbD, Bool.or_eq_true, decide_eq_true_eq]
  exact ⟨Or.imp_right fun h => ⟨k, hk, h⟩, fun h => .inl (.inl h)⟩

theorem clearCause_moves {up down : List Source} {k : Source} (hk : k ∈ down) (s : State) :
    CauseMoves up down s.mi.cause (clearCause k s).mi.cause := by
  intro j hj
  simp only [clearCause_getLsbD k s hj, Bool.and_eq_true, Bool.not_eq_true', decide_eq_false_iff_not]
  refine ⟨fun h => .inl h.1, fun h => ?_⟩
  by_cases hjk : j = k.bit
  · exact .inr ⟨k, hk, hjk⟩
  · exact .inl ⟨h, hjk⟩

/-! ## The operations that touch the cause word -/

theorem miModeWrite_moves {up down : List Source} {v : Word} (hk : v.getLsbD 11 = true → .dp ∈ down) (s : State) :
    CauseMoves up down s.mi.cause (miModeWrite v s).mi.cause := by
  unfold miModeWrite
  split
  next hv => exact clearCause_moves (hk hv) s
  next => exact .refl _

theorem audioHandleDma_moves {up down : List Source} (hk : .ai ∈ up) (t : Nat) (s : State) :
    CauseMoves up down s.mi.cause (audioHandleDma t s).mi.cause := by
  cases hf : s.ai.fifo with
  | nil =>
    rw [audioHandleDma_idle hf]
    exact .refl _
  | cons slot rest =>
    rcases Nat.lt_or_ge (s.ai.elapsed + t) slot.dur with ht | ht
    · rw [audioHandleDma_counts hf ht]
      exact .refl _
    · rw [audioHandleDma_pops hf ht]
      exact setCause_moves hk _

theorem serialTick_moves {up down : List Source} (hk : .si ∈ up) (t : Nat) (s : State) :
    CauseMoves up down s.mi.cause (serialTick t s).mi.cause := by
  cases hb : s.si.dmaBusy with
  | false =>
    rw [serialTick_idle hb]
    exact .refl _
  | true =>
    rcases Nat.lt_or_ge (s.si.elapsed + t) s.si.cost with ht | ht
    · rw [serialTick_counts hb ht]
      exact .refl _
    · rw [serialTick_completes hb ht]
      exact setCause_moves hk _

theorem advance_moves (t : Nat) (s : State) :
    CauseMoves [.ai, .si] [] s.mi.cause (advance t s).mi.cause :=
  (audioHandleDma_moves (by decide) t s).trans (serialTick_moves (by decide) t _)

theorem dpcEndWrite_moves (v : Word) (s : State) : CauseMoves [.dp] [] s.mi.cause (dpcEndWrite v s).mi.cause := by
  rw [dpcEndWrite_eq]
  dsimp only
  split
  · exact setCause_moves (List.mem_singleton_self _) s
  · exact .refl _

/-! ## Every operation -/

/-- The operations that remain after the named cases leave the cause word as it is. -/
theorem exec_causeMoves {i : Instr} {s t : State} (hl : s.phase = .live) (h : exec i s = .next t) :
    CauseMoves (causesSet i) (causesCleared i) s.mi.cause t.mi.cause := by
  cases i
  case swMiMode v =>
    cases h
    exact miModeWrite_moves (fun hv => by simp [causesCleared, hv]) s
  case swAiStatus v | swSiStatus v =>
    cases h
    exact clearCause_moves (List.mem_singleton_self _) s
  case portRaiseSource k =>
    cases h
    exact setCause_moves (List.mem_singleton_self _) s
  case portClearSource k =>
    cases h
    exact clearCause_moves (List.mem_singleton_self _) s
  case portAdvance n =>
    cases h
    exact advance_moves n s
  case swDpcEnd v =>
    rw [(execSwDpcEnd_next h).2]
    exact dpcEndWrite_moves v s
  case portConstruct =>
    rcases execPortConstruct_next h with ⟨-, rfl⟩ | ⟨ha, -, -⟩
    · exact .refl _
    · exact absurd (hl.symm.trans ha) (by decide)
  case swAiLen v =>
    cases h
    rw [State.withAnswer_mi, aiLenWrite_mi]
    exact .refl _
  case swSiPifAdRd64b v | swSiPifAdWr64b v =>
    cases h
    rw [State.withAnswer_mi, serialHandleDma_mi]
    exact .refl _
  case lbMem | lhMem | lwMem | ldMem =>
    rw [loadImage_next h]
    exact .refl _
  case sbMem | shMem | swMem | sdMem =>
    rw [(storeImage_next h).2]
    exact .refl _
  all_goals
    cases h
    exact .refl _

/-- Which operations set the cause bit of a source, by its number (R145). -/
theorem causesSet_owner {i : Instr} {k : Source} (h : k ∈ causesSet i) :
    (k.bit = 0 ∧ i = .portRaiseSource .sp) ∨ (k.bit = 1 ∧ ∃ n, i = .portAdvance n) ∨
    (k.bit = 2 ∧ ∃ n, i = .portAdvance n) ∨ (k.bit = 3 ∧ i = .portRaiseSource .vi) ∨
    (k.bit = 4 ∧ i = .portRaiseSource .pi) ∨ (k.bit = 5 ∧ ∃ v, i = .swDpcEnd v) := by
  unfold causesSet at h
  split at h
  next x =>
    rw [List.mem_singleton.1 h]
    cases x <;> simp [extSource, Source.bit]
  next n =>
    rcases List.mem_pair.1 h with rfl | rfl <;> simp [Source.bit]
  next v =>
    rw [List.mem_singleton.1 h]
    simp [Source.bit]
  next => cases h

/-- Which operations clear the cause bit of a source, by its number (R145). -/
theorem causesCleared_owner {i : Instr} {k : Source} (h : k ∈ causesCleared i) :
    (k.bit = 0 ∧ i = .portClearSource .sp) ∨ (k.bit = 1 ∧ ∃ v, i = .swSiStatus v) ∨
    (k.bit = 2 ∧ ∃ v, i = .swAiStatus v) ∨ (k.bit = 3 ∧ i = .portClearSource .vi) ∨
    (k.bit = 4 ∧ i = .portClearSource .pi) ∨ (k.bit = 5 ∧ ∃ v, i = .swMiMode v ∧ v.getLsbD 11 = true) := by
  unfold causesCleared at h
  split at h
  next x =>
    rw [List.mem_singleton.1 h]
    cases x <;> simp [extSource, Source.bit]
  next v =>
    rw [List.mem_singleton.1 h]
    simp [Source.bit]
  next v =>
    rw [List.mem_singleton.1 h]
    simp [Source.bit]
  next v =>
    split at h
    next hv =>
      rw [List.mem_singleton.1 h]
      simp [Source.bit, hv]
    next => cases h
  next => cases h

/-- Settles O10: `exec_causeMoves` says which bits can move, and the owners of those sources are the operations named. -/
theorem causeOwnership : Obligations.CauseOwnership := by
  unfold Obligations.CauseOwnership
  intro i s t hl h
  refine ⟨fun j hj hs ht => ?_, fun j hj hs ht => ?_⟩
  · rcases (exec_causeMoves hl h j hj).1 ht with hs' | ⟨k, hk, rfl⟩
    · exact absurd hs' (by simp [hs])
    · exact causesSet_owner hk
  · rcases (exec_causeMoves hl h j hj).2 hs with ht' | ⟨k, hk, rfl⟩
    · exact absurd ht' (by simp [ht])
    · exact causesCleared_owner hk

end Sys2Proof.Machine
end

section
/-! PROOFS. Every step keeps the machine's invariant (spec/10_state.md R51): the fresh block has it, each operation that
writes a field of it keeps it, one component at a time, and a step performs one operation. -/

namespace Sys2Proof.Machine

open Sys2Proof

/-! ## The fresh block, and one component replaced -/

theorem audioInv_fresh (c : Config) : AudioInv c (State.fresh c).ai := by
  refine ⟨Nat.zero_le 2, rfl, fun _ => rfl, rfl, rfl, ?_, fun _ h => nomatch h⟩
  simp [State.fresh, Config.dacFrequency]

theorem serialInv_fresh (c : Config) : SerialInv c (State.fresh c).si :=
  ⟨rfl, fun _ => ⟨rfl, rfl⟩, rfl, rfl, rfl, rfl, rfl, Nat.zero_le 6, rfl, fun h => nomatch h⟩

theorem displayInv_fresh (c : Config) : DisplayInv (State.fresh c).dpc :=
  ⟨rfl, fun _ h => (nomatch h), rfl, rfl, rfl, Nat.zero_le 43⟩

theorem inv_fresh {c : Config} (hc : ConfigOk c) : Inv (State.fresh c) := by
  have ⟨_, _, _, hwf, hin, _⟩ := hc
  exact ⟨hc, audioInv_fresh c, serialInv_fresh c, displayInv_fresh c, ⟨hwf, hin⟩, fun _ h => nomatch h⟩

section
variable {s : State}

theorem inv_withAi (h : Inv s) {a : AudioEngine} (ha : AudioInv s.cfg a) : Inv (s.withAi a) := by
  obtain ⟨hc, -, hs, hd, hm, hp⟩ := h
  exact ⟨hc, ha, hs, hd, hm, hp⟩

theorem inv_withSi (h : Inv s) {e : SerialEngine} (hs : SerialInv s.cfg e) : Inv (s.withSi e) := by
  obtain ⟨hc, ha, -, hd, hm, hp⟩ := h
  exact ⟨hc, ha, hs, hd, hm, hp⟩

theorem inv_withDpc (h : Inv s) {d : DisplayInterface} (hd : DisplayInv d) : Inv (s.withDpc d) := by
  obtain ⟨hc, ha, hs, -, hm, hp⟩ := h
  exact ⟨hc, ha, hs, hd, hm, hp⟩

theorem inv_withMem (h : Inv s) {m : Memory} (hm : MemoryInv s.cfg m) : Inv (s.withMem m) := by
  obtain ⟨hc, ha, hs, hd, -, hp⟩ := h
  exact ⟨hc, ha, hs, hd, hm, hp⟩

theorem inv_withPending (h : Inv s) {es : List Issued} (hp : MovesInv es) : Inv (s.withPending es) := by
  obtain ⟨hc, ha, hs, hd, hm, -⟩ := h
  exact ⟨hc, ha, hs, hd, hm, hp⟩

end

/-- CONSTRUCT makes the fresh block and keeps the operations issued (R340). -/
theorem inv_constructed {s : State} (h : Inv s) : Inv (constructed s) := by
  obtain ⟨hc, -, -, -, -, hp⟩ := h
  obtain ⟨-, ha, hs, hd, hm, -⟩ := inv_fresh hc
  exact ⟨hc, ha, hs, hd, hm, hp⟩

theorem pointerField_aligned (v : Word) : (pointerField v).toNat % 8 = 0 := by
  rw [pointerField_toNat]
  exact Nat.mul_mod_left _ 8

theorem lengthField_aligned (v : Word) : (lengthField v).toNat % 8 = 0 := by
  rw [lengthField_toNat]
  exact Nat.mul_mod_left _ 8

/-! ## The Audio DMA Engine -/

section
variable {c : Config} {a : AudioEngine}

theorem audioInv_dramAddr (h : AudioInv c a) (v : Word) : AudioInv c { a with dramAddr := pointerField v } := by
  obtain ⟨hn, hr, he, -, hl, hf, hd⟩ := h
  exact ⟨hn, hr, he, pointerField_aligned v, hl, hf, hd⟩

theorem audioInv_len (h : AudioInv c a) (v : Word) : AudioInv c { a with len := lengthField v } := by
  obtain ⟨hn, hr, he, ha, -, hf, hd⟩ := h
  exact ⟨hn, hr, he, ha, lengthField_aligned v, hf, hd⟩

theorem audioInv_dacrate (h : AudioInv c a) (r : BitVec 14) :
    AudioInv c { a with dacrate := r, freq := c.dacFrequency r } := by
  obtain ⟨hn, hr, he, ha, hl, -, hd⟩ := h
  exact ⟨hn, hr, he, ha, hl, rfl, hd⟩

/-- The counter is 0 where the first slot comes in, so the countdown of the head starts there (R172, R184). -/
theorem audioInv_push (h : AudioInv c a) (hlt : a.fifo.length < 2) (slot : AudioSlot) :
    AudioInv c { a with fifo := a.fifo ++ [slot], ready := decide (a.fifo = []) } := by
  obtain ⟨-, -, he, ha, hl, hf, hd⟩ := h
  refine ⟨?_, ?_, fun hx => absurd hx (by simp), ha, hl, hf, ?_⟩
  · simp only [List.length_append, List.length_singleton]
    omega
  · cases hx : a.fifo <;> simp
  · cases hx : a.fifo with
    | nil => exact fun _ _ => .inl (he hx)
    | cons x xs =>
      rw [hx] at hd
      exact hd

theorem audioInv_elapsed {slot : AudioSlot} {rest : List AudioSlot} {n : Nat} (h : AudioInv c a)
    (hx : a.fifo = slot :: rest) (hn : n < slot.dur) : AudioInv c { a with elapsed := n } := by
  obtain ⟨hlen, hr, -, ha, hl, hf, -⟩ := h
  refine ⟨hlen, hr, fun he => ?_, ha, hl, hf, fun x hm => ?_⟩
  · exact absurd (hx.symm.trans he) (List.cons_ne_nil _ _)
  · simp only [hx, List.take_succ_cons, List.take_zero, List.mem_singleton] at hm
    exact .inr (hm ▸ hn)

theorem audioInv_pop {slot : AudioSlot} {rest : List AudioSlot} (h : AudioInv c a) (hx : a.fifo = slot :: rest) :
    AudioInv c { a with fifo := rest, ready := true, elapsed := 0 } := by
  obtain ⟨hn, -, -, ha, hl, hf, -⟩ := h
  rw [hx, List.length_cons] at hn
  have hlt : rest.length < 2 := by omega
  exact ⟨hlt.le, (decide_eq_true hlt).symm, fun _ => rfl, ha, hl, hf, fun _ _ => .inl rfl⟩

end

theorem inv_audioPush {s : State} (h : Inv s) (a : BitVec 24) (len : BitVec 18) : Inv (audioPush a len s) := by
  have ⟨_, ha, _⟩ := h
  by_cases hr : s.ai.ready = true ∧ s.ai.fifo.length < 2
  · rw [audioPush_accepted hr]
    exact inv_withAi h (audioInv_push ha hr.2 _)
  · rw [audioPush_refused hr]
    exact h

theorem inv_aiLenWrite {s : State} (h : Inv s) (v : Word) : Inv (aiLenWrite v s) := by
  have ⟨_, ha, _⟩ := h
  exact inv_audioPush (inv_withAi h (audioInv_len ha v)) _ _

theorem inv_audioHandleDma {s : State} (h : Inv s) (t : Nat) : Inv (audioHandleDma t s) := by
  have ⟨_, ha, _⟩ := h
  cases hx : s.ai.fifo with
  | nil =>
    rw [audioHandleDma_idle hx]
    exact h
  | cons slot rest =>
    rcases Nat.lt_or_ge (s.ai.elapsed + t) slot.dur with ht | ht
    · rw [audioHandleDma_counts hx ht]
      exact inv_withAi h (audioInv_elapsed ha hx ht)
    · rw [audioHandleDma_pops hx ht]
      exact inv_withAi h (audioInv_pop ha hx)

/-! ## The Serial DMA Engine -/

section
variable {c : Config} {e : SerialEngine}

theorem serialInv_dramAddr (h : SerialInv c e) (v : Word) : SerialInv c { e with dramAddr := pointerField v } := by
  obtain ⟨hb, hi, h0, h1, h2, h3, h4, hc, -, ht⟩ := h
  exact ⟨hb, hi, h0, h1, h2, h3, h4, hc, pointerField_aligned v, ht⟩

theorem serialInv_elapsed {n : Nat} (h : SerialInv c e) (hb : e.dmaBusy = true) (hn : n < e.cost) :
    SerialInv c { e with elapsed := n } := by
  obtain ⟨hd, -, h0, h1, h2, h3, h4, hc, ha, ht⟩ := h
  exact ⟨hd, fun hf => absurd (hb.symm.trans hf) (by decide), h0, h1, h2, h3, h4, hc, ha, fun _ => ⟨(ht hb).1, .inr hn⟩⟩

theorem serialInv_complete (h : SerialInv c e) :
    SerialInv c { e with dmaBusy := false, dir := none, elapsed := 0, cost := 0, intr := true } := by
  obtain ⟨-, -, h0, h1, h2, h3, h4, hc, ha, -⟩ := h
  exact ⟨rfl, fun _ => ⟨rfl, rfl⟩, h0, h1, h2, h3, h4, hc, ha, fun hf => nomatch hf⟩

/-- A transaction accepted: the counter starts at 0 and the cost is at least the transfer's own (R207). -/
theorem serialInv_start (h : SerialInv c e) (v : Word) (dir : Dir) {ch n : Nat} (hch : ch ≤ 6) (p : Vector Byte 64) :
    SerialInv c { e with
      pifAddr := v
      dmaBusy := true
      dir := some dir
      elapsed := 0
      channel := ch
      cost := c.siTransferCost + n
      pifRam := p } := by
  obtain ⟨-, -, h0, h1, h2, h3, h4, -, ha, -⟩ := h
  exact ⟨rfl, fun hf => (nomatch hf), h0, h1, h2, h3, h4, hch, ha, fun _ => ⟨Nat.le_add_right _ _, .inl rfl⟩⟩

end

/-- The scan ends at most one channel past the sixth (R36, R210). -/
theorem scanPif_ch_le (s : State) : (scanPif s).ch ≤ 6 := (processRam_bounds _ _ _ _ (Nat.zero_le 6)).1

theorem inv_serialHandleDma {s : State} (h : Inv s) (dir : Dir) (v : Word) : Inv (serialHandleDma dir v s) := by
  have ⟨_, _, hs, _, hm, _⟩ := h
  cases hb : s.si.dmaBusy with
  | true =>
    rw [serialHandleDma_busy hb]
    exact h
  | false =>
    cases dir with
    | write =>
      rw [serialHandleDma_write hb]
      exact inv_withSi h (serialInv_start (n := 0) hs v .write (Nat.zero_le 6) _)
    | read =>
      rw [serialHandleDma_read hb]
      exact inv_withMem (inv_withSi h (serialInv_start hs v .read (scanPif_ch_le s) _))
        (dmaWriteBytes_keeps _ hm _)

theorem inv_serialTick {s : State} (h : Inv s) (t : Nat) : Inv (serialTick t s) := by
  have ⟨_, _, hs, _⟩ := h
  cases hb : s.si.dmaBusy with
  | false =>
    rw [serialTick_idle hb]
    exact h
  | true =>
    rcases Nat.lt_or_ge (s.si.elapsed + t) s.si.cost with ht | ht
    · rw [serialTick_counts hb ht]
      exact inv_withSi h (serialInv_elapsed hs hb ht)
    · rw [serialTick_completes hb ht]
      exact inv_withSi h (serialInv_complete hs)

theorem inv_advance {s : State} (h : Inv s) (t : Nat) : Inv (advance t s) :=
  inv_serialTick (inv_audioHandleDma h t) t

/-! ## The Display Command Interface -/

theorem displayInv_start {d : DisplayInterface} (h : DisplayInv d) (v : Word) :
    DisplayInv { d with start := pointerField v, current := pointerField v } := by
  obtain ⟨hr, hw, -, hf, -, hk⟩ := h
  exact ⟨hr, hw, pointerField_aligned v, hf, pointerField_aligned v, hk⟩

theorem displayInv_cleared {d : DisplayInterface} (h : DisplayInv d) :
    DisplayInv { d with rows := [], cmdReady := false } := by
  obtain ⟨-, -, hs, hf, hc, hk⟩ := h
  exact ⟨rfl, fun _ hr => (nomatch hr), hs, hf, hc, hk⟩

/-- A row of an even number of words is appended, or the empty row is not (R241). -/
theorem displayInv_ingest {d : DisplayInterface} (h : DisplayInv d) (v : Word) {row : List Word} {skip : Nat}
    (hrow : row.length % 2 = 0) (hskip : skip ≤ 43) (finished : Bool) :
    DisplayInv { d with
      finish := pointerField v
      current := pointerField v
      skip := skip
      rows := if row = [] then d.rows else d.rows ++ [row]
      cmdReady := if row = [] then d.cmdReady else true
      frameFinished := finished } := by
  obtain ⟨hr, hw, hs, -, -, -⟩ := h
  refine ⟨?_, ?_, hs, pointerField_aligned v, pointerField_aligned v, hskip⟩
  all_goals by_cases hx : row = []
  · simpa only [hx, if_true] using hr
  · simp [hx]
  · simpa only [hx, if_true] using hw
  · simp only [hx, if_false, List.forall_mem_append, List.forall_mem_singleton]
    exact ⟨hw, hx, hrow⟩

theorem inv_dpcEndWrite {s : State} (h : Inv s) (v : Word) : Inv (dpcEndWrite v s) := by
  have ⟨⟨_, _, hlen, _⟩, _, _, hd, _⟩ := h
  have ⟨_, _, _, _, hcur, hskip⟩ := hd
  rw [dpcEndWrite_eq]
  refine inv_withDpc h (displayInv_ingest hd v ?_ (scanRow_skip_le hlen _ hskip) _)
  rw [ingestedRow_length]
  exact rowLength_even hcur (pointerField_aligned v)

/-! ## Memory, CONSTRUCT and every operation -/

theorem inv_miModeWrite {s : State} (h : Inv s) (v : Word) : Inv (miModeWrite v s) := by
  unfold miModeWrite
  split <;> exact h

theorem inv_storeImage {a : Word} {d : Data} {s t : State} (hi : Inv s) (h : storeImage a d s = .next t) : Inv t := by
  have ⟨_, _, _, _, ⟨hw, hin⟩, _⟩ := hi
  obtain ⟨ha, rfl⟩ := storeImage_next h
  exact inv_withMem hi ⟨Memory.wf_store hw _ d, Memory.within_store hin d ha⟩

theorem inv_execPortConstruct {s t : State} (hi : Inv s) (h : execPortConstruct s = .next t) : Inv t := by
  rcases execPortConstruct_next h with ⟨-, rfl⟩ | ⟨-, -, rfl⟩
  · exact hi
  · exact inv_constructed hi

/-- The operations that remain after the named cases write no field of the invariant. -/
theorem exec_keeps_inv {i : Instr} {s t : State} (hi : Inv s) (h : exec i s = .next t) : Inv t := by
  have ⟨_, ha, hs, hd, _, _⟩ := hi
  cases i
  case swMiMode v =>
    cases h
    exact inv_miModeWrite hi v
  case swAiDramAddr v =>
    cases h
    exact inv_withAi hi (audioInv_dramAddr ha v)
  case swAiLen v =>
    cases h
    exact inv_aiLenWrite hi v
  case swAiDacrate v =>
    cases h
    exact inv_withAi hi (audioInv_dacrate ha _)
  case swSiDramAddr v =>
    cases h
    exact inv_withSi hi (serialInv_dramAddr hs v)
  case swSiPifAdRd64b v | swSiPifAdWr64b v =>
    cases h
    exact inv_serialHandleDma hi _ v
  case swDpcStart v =>
    cases h
    exact inv_withDpc hi (displayInv_start hd v)
  case swDpcEnd v =>
    rw [(execSwDpcEnd_next h).2]
    exact inv_dpcEndWrite hi v
  case sbMem | shMem | swMem | sdMem => exact inv_storeImage hi h
  case lbMem | lhMem | lwMem | ldMem =>
    rw [loadImage_next h]
    exact hi
  case portAdvance n =>
    cases h
    exact inv_advance hi n
  case portConstruct => exact inv_execPortConstruct hi h
  case portClearCommands =>
    cases h
    exact inv_withDpc hi (displayInv_cleared hd)
  all_goals
    cases h
    exact hi

/-- Settles O57: a step that does something performs one of the operations issued, and the others stay issued. -/
theorem stepKeepsInv : Obligations.StepKeepsInv := by
  unfold Obligations.StepKeepsInv
  intro s t hi h
  rcases step_next h with ⟨-, rfl⟩ | ⟨e, others, hp, -, hx⟩
  · exact hi
  · have ⟨_, _, _, _, _, hmoves⟩ := hi
    have ⟨_, _, hsub⟩ := pick_mem hp
    exact exec_keeps_inv (inv_withPending hi fun x hm => hmoves x (hsub x hm)) hx

end Sys2Proof.Machine
end

section
/-! PROOFS. The invariant holds in every state that the moves of the agents can lead to, and R51 items 1 to 5 follow. -/

namespace Sys2Proof.Machine

open Sys2Proof

theorem inv_boot {c : Config} (hc : ConfigOk c) {m : Memory} (hm : MemoryInv c m) (pif : Vector Byte 64) :
    Inv ((State.fresh c).boot m pif) :=
  inv_withSi (inv_withMem (inv_fresh hc) hm) (serialInv_fresh c)

theorem inv_issue {s : State} (h : Inv s) (e : Issued) : Inv (s.issue e) := by
  cases he : mayIssue e.agent e.request with
  | true =>
    rw [issue_move he]
    have ⟨_, _, _, _, _, hmoves⟩ := h
    exact inv_withPending h (List.forall_mem_append.2 ⟨hmoves, List.forall_mem_singleton.2 he⟩)
  | false =>
    rw [issue_noMove he]
    exact h

theorem reachable_inv {c : Config} {s : State} (hc : ConfigOk c) (h : Reachable c s) : Inv s := by
  induction h with
  | fresh => exact inv_fresh hc
  | boot m pif hm => exact inv_boot hc hm pif
  | issue s e _ ih => exact inv_issue ih e
  | step s t _ hst ih => exact stepKeepsInv s t ih hst

/-- Where no row is empty, there are words exactly where there are rows. -/
theorem flatten_ne_nil_iff_rows {rows : List (List Word)} (h : ∀ r ∈ rows, r ≠ []) : rows.flatten ≠ [] ↔ rows ≠ [] := by
  cases rows with
  | nil => simp
  | cons r rs => simp [h r List.mem_cons_self]

/-- Settles O59: the items of R51 are read off the invariant. -/
theorem reachableStates : Obligations.ReachableStates := by
  unfold Obligations.ReachableStates
  intro c s hc h
  obtain ⟨-, ⟨hlen, hready, hidle, -⟩, ⟨hbusy, hoff, -⟩, ⟨hcmd, hrows, -⟩, -, hmoves⟩ := reachable_inv hc h
  have hne : ∀ r ∈ s.dpc.rows, r ≠ [] := fun r hr => (hrows r hr).1
  have hdir : s.si.dmaBusy = true ↔ s.si.dir ≠ none := by
    rw [hbusy, Option.isSome_iff_ne_none]
  have hwords : s.dpc.cmdReady = decide (s.dpc.rows.flatten ≠ []) := by
    rw [hcmd, decide_eq_decide, flatten_ne_nil_iff_rows hne]
  exact ⟨hlen, hready, hidle, hdir, fun hb => (hoff hb).1, List.length_flatten.symm, hne, hwords, hmoves⟩

end Sys2Proof.Machine
end

section
/-! PROOFS. A mixed-width access sees the big-endian composition of what a store put (spec/20_memory.md R76, R77). -/

namespace Sys2Proof

open Machine

/-- Where the second field ends the first begins, the two together are one field. -/
theorem extractLsb'_halves (v : Word) :
    v.extractLsb' 24 8 ++ v.extractLsb' 16 8 = v.extractLsb' 16 16 ∧
    v.extractLsb' 8 8 ++ v.extractLsb' 0 8 = v.extractLsb' 0 16 :=
  ⟨BitVec.extractLsb'_append_extractLsb'_eq_extractLsb' rfl, BitVec.extractLsb'_append_extractLsb'_eq_extractLsb' rfl⟩

/-- A word is its four bytes, most significant first (R76). -/
theorem append_wordBytes (v : Word) :
    v.extractLsb' 24 8 ++ v.extractLsb' 16 8 ++ v.extractLsb' 8 8 ++ v.extractLsb' 0 8 = v := by
  have h16 : v.extractLsb' 16 16 ++ v.extractLsb' 8 8 = v.extractLsb' 8 24 :=
    BitVec.extractLsb'_append_extractLsb'_eq_extractLsb' rfl
  have h8 : v.extractLsb' 8 24 ++ v.extractLsb' 0 8 = v.extractLsb' 0 32 :=
    BitVec.extractLsb'_append_extractLsb'_eq_extractLsb' rfl
  calc _ = v.extractLsb' 16 16 ++ v.extractLsb' 8 8 ++ v.extractLsb' 0 8 := by rw [(extractLsb'_halves v).1]
    _ = v.extractLsb' 8 24 ++ v.extractLsb' 0 8 := by rw [h16]
    _ = v := h8.trans BitVec.extractLsb'_eq_self

/-- Byte i of a stored word is bits 8(3-i)+7 .. 8(3-i) (R76). -/
theorem Memory.read_store_word {m : Memory} (h : m.wf = true) (a : Nat) (v : Word) {i : Nat} (hi : i < 4) :
    (m.store a (.w v)).read (a + i) = v.extractLsb' (8 * (3 - i)) 8 := by
  rw [Memory.store, Memory.read_writeBytes_inside (Data.w v).bytes h a i hi]
  rcases i with _ | _ | _ | _ | i
  · rfl
  · rfl
  · rfl
  · rfl
  · omega

section

variable {m : Memory} (h : m.wf = true) (a : Nat) (v : Word)

include h

theorem Memory.load_byte_store_word {i : Nat} (hi : i < 4) :
    (m.store a (.w v)).load (a + i) .w1 = .b (v.extractLsb' (8 * (3 - i)) 8) :=
  congrArg Data.b (read_store_word h a v hi)

theorem Memory.load_high_store_word : (m.store a (.w v)).load a .w2 = .h (v.extractLsb' 16 16) := by
  have hb := fun i => read_store_word h a v (i := i)
  rw [load, ← (extractLsb'_halves v).1]
  exact congrArg Data.h (congrArg₂ _ (hb 0 (by decide)) (hb 1 (by decide)))

theorem Memory.load_low_store_word : (m.store a (.w v)).load (a + 2) .w2 = .h (v.extractLsb' 0 16) := by
  have hb := fun i => read_store_word h a v (i := i)
  rw [load, ← (extractLsb'_halves v).2]
  exact congrArg Data.h (congrArg₂ _ (hb 2 (by decide)) (hb 3 (by decide)))

theorem Memory.load_word_store_word : (m.store a (.w v)).load a .w4 = .w v := by
  have hb := fun i => read_store_word h a v (i := i)
  conv_rhs => rw [← append_wordBytes v]
  exact congrArg Data.w (congrArg₂ _ (congrArg₂ _ (congrArg₂ _ (hb 0 (by decide)) (hb 1 (by decide))) (hb 2 (by decide)))
    (hb 3 (by decide)))

end

/-- The high half of an 8-byte load is the 4-byte load of the same address (R76). -/
theorem Memory.load_double_high {m : Memory} {a : Nat} {v : Word} (h : m.load a .w4 = .w v) :
    ∃ x : BitVec 64, m.load a .w8 = .d x ∧ x.extractLsb' 32 32 = v := by
  refine ⟨_, rfl, ?_⟩
  iterate 4 rw [BitVec.extractLsb'_append_eq_of_le (by decide)]
  exact BitVec.extractLsb'_eq_self.trans (Data.w.inj h)

/-- An 8-byte aligned word of the image is followed by another one: its size is a multiple of 8 (R6). -/
theorem rdramBytes_double {c : Config} {a : Nat} (h : a + 4 ≤ c.rdramBytes) (ha : a % 8 = 0) : a + 8 ≤ c.rdramBytes := by
  rcases rdramBytes_cases c with hs | hs <;> omega

/-- An offset inside a word of the image does not wrap. -/
theorem toNat_add_ofNat {c : Config} {a : Word} (h : a.toNat + 4 ≤ c.rdramBytes) {i : Nat} (hi : i < 4) :
    (a + BitVec.ofNat 32 i).toNat = a.toNat + i := by
  have hsize := rdramBytes_cases c
  rw [BitVec.toNat_add, BitVec.toNat_ofNat]
  omega

end Sys2Proof

namespace Sys2Proof.Machine

open Sys2Proof

/-- A load inside the image that the memory answers with d answers d, and changes nothing else (R152). -/
theorem loadImage_of_load {a : Word} {n : Width} {k : Nat} {d : Data} {s : State} (hk : a.toNat = k)
    (h : k + n.bytes ≤ s.cfg.rdramBytes) (hd : s.mem.load k n = d) : loadImage a n s = .next { s with answer := .data d } := by
  subst hk hd
  exact loadImage_inside h

/-- Settles O39: each load of the stored bytes is a load of what the store left in memory. -/
theorem mixedWidths : Obligations.MixedWidths := by
  unfold Obligations.MixedWidths
  intro a v s t ⟨hwf, _⟩ _ ht
  obtain ⟨hin, rfl⟩ := storeImage_next (a := a) (d := .w v) ht
  replace hin : a.toNat + 4 ≤ s.cfg.rdramBytes := hin
  have hword := Memory.load_word_store_word hwf a.toNat v
  refine ⟨loadImage_of_load rfl hin hword, fun i hi => ?_, ?_, ?_, fun h8 => ?_⟩
  · exact loadImage_of_load (toNat_add_ofNat hin hi) (by simp only [Width.bytes]; omega)
      (Memory.load_byte_store_word hwf a.toNat v hi)
  · exact loadImage_of_load rfl (by simp only [Width.bytes]; omega) (Memory.load_high_store_word hwf a.toNat v)
  · exact loadImage_of_load (toNat_add_ofNat hin (by decide)) (by simp only [Width.bytes]; omega)
      (Memory.load_low_store_word hwf a.toNat v)
  · obtain ⟨x, hx, hv⟩ := Memory.load_double_high hword
    exact ⟨x, loadImage_of_load rfl (rdramBytes_double hin h8) hx, hv⟩

end Sys2Proof.Machine
end

section
/-! PROOFS. A bus read of the block's own addresses changes no state (spec/20_memory.md R80): the operation it decodes to
either answers data that does not depend on the last answer, or records a refusal and nothing else (R312). -/

namespace Sys2Proof

theorem Memory.load_width (m : Memory) (a : Nat) (n : Width) : (m.load a n).width = n := by
  cases n <;> rfl

end Sys2Proof

namespace Sys2Proof.Machine

open Sys2Proof

/-- In the state s, and whatever was answered last, the operation answers the same data of width n and changes nothing
else. -/
def Loads (s : State) (n : Width) (i : Instr) : Prop :=
  ∃ d : Data, d.width = n ∧ ∀ x, exec i { s with answer := x } = .next { s with answer := .data d }

/-- A word that does not depend on the last answer, returned in every state. -/
theorem loads_of_returningWord {s : State} {i : Instr} {f : State → Word} (h : ∀ t, exec i t = returningWord (f t) t)
    (hf : ∀ x, f { s with answer := x } = f s) : Loads s .w4 i :=
  ⟨.w (f s), rfl, fun x => by rw [h, returningWord_eq, hf]⟩

/-! ## The reads of each owner -/

theorem readMi_loads (s : State) (off : BitVec 20) : Loads s .w4 (readMi off) := by
  unfold readMi
  split <;> exact loads_of_returningWord (fun _ => rfl) fun _ => rfl

theorem readAi_loads (s : State) (off : BitVec 20) : Loads s .w4 (readAi off) := by
  unfold readAi
  split <;> exact loads_of_returningWord (fun _ => rfl) fun _ => rfl

theorem readSi_loads (s : State) (off : BitVec 20) : Loads s .w4 (readSi off) := by
  unfold readSi
  split <;> exact loads_of_returningWord (fun _ => rfl) fun _ => rfl

theorem readDpc_loads (s : State) (off : BitVec 20) : Loads s .w4 (readDpc off) := by
  unfold readDpc
  split <;> exact loads_of_returningWord (fun _ => rfl) fun _ => rfl

theorem readRi_loads (s : State) (off : BitVec 20) : Loads s .w4 (readRi off) := by
  unfold readRi
  split <;> exact loads_of_returningWord (fun _ => rfl) fun _ => rfl

theorem openBusData_width (c : Config) (n : Width) : (openBusData c n).width = n := by
  cases n <;> rfl

/-- A load inside the image (R152). -/
theorem decodeMemory_loads {s : State} {a : Word} {n : Width} (h : a.toNat + n.bytes ≤ s.cfg.rdramBytes) :
    Loads s n (decodeMemory (.read a n)) := by
  refine ⟨s.mem.load a.toNat n, Memory.load_width _ _ _, fun x => ?_⟩
  have hl : loadImage a n { s with answer := x } = .next { s with answer := .data (s.mem.load a.toNat n) } :=
    loadImage_inside h
  cases n <;> exact hl

/-- An aligned read decodes by the owner of its address (R102). -/
theorem decode_read_of_aligned {c : Config} {a : Word} {n : Width} (h : aligned a n = true) :
    decode c (.bus (.read a n)) = decodeOwned c (.read a n) (route c a) :=
  decodeBus_of_aligned c (op := .read a n) h

/-- An aligned 4-byte read of any owner, and one of any width of the memory image or of an unmapped address, is a load. -/
theorem decode_read_loads {s : State} {a : Word} {n : Width} (ha : aligned a n = true)
    (hr : route s.cfg a ≠ .external) (hn : n = .w4 ∨ route s.cfg a = .memoryImage ∨ route s.cfg a = .unmapped) :
    Loads s n (decode s.cfg (.bus (.read a n))) := by
  rw [decode_read_of_aligned ha]
  have hin : route s.cfg a = .memoryImage → a.toNat + n.bytes ≤ s.cfg.rdramBytes := fun ho =>
    owned_memoryImage (by simp [owned, ha, ho])
  cases ho : route s.cfg a
  case external => exact absurd ho hr
  case memoryImage => exact decodeMemory_loads (hin ho)
  case unmapped => exact ⟨openBusData s.cfg n, openBusData_width _ _, fun _ => rfl⟩
  all_goals
    obtain rfl : n = .w4 := by simpa [ho] using hn
  case dpc => exact readDpc_loads s _
  case mi => exact readMi_loads s _
  case ai => exact readAi_loads s _
  case ri => exact readRi_loads s _
  case si => exact readSi_loads s _
  case pifRam => exact loads_of_returningWord (fun _ => rfl) fun _ => rfl

/-- Every other read of the block's own addresses is refused: for its alignment (R158), or by a register block or PIF RAM
for its width (R157). -/
theorem decode_read_refused {c : Config} {a : Word} {n : Width} (hr : route c a ≠ .external)
    (hn : aligned a n = true → ¬ (n = .w4 ∨ route c a = .memoryImage ∨ route c a = .unmapped)) :
    decode c (.bus (.read a n)) = .refuseMisalignedBusAccess (.read a n) ∨
      decode c (.bus (.read a n)) = .refuseUnsupportedWidth (.read a n) := by
  cases ha : aligned a n with
  | false => exact .inl (decodeBus_of_misaligned c ha)
  | true =>
    obtain ⟨hw, hm, hu⟩ : n ≠ .w4 ∧ route c a ≠ .memoryImage ∧ route c a ≠ .unmapped := by simpa using hn ha
    rw [decode_read_of_aligned ha]
    right
    cases ho : route c a
    case external => exact absurd ho hr
    case memoryImage => exact absurd ho hm
    case unmapped => exact absurd ho hu
    all_goals
      cases n
      case w4 => exact absurd rfl hw
      all_goals rfl

/-- A refused operation performed again changes nothing more: the record keeps the first reason (R312). -/
theorem refuse_again (r : RefuseReason) (s : State) :
    ∃ t, refuse r s = .next t ∧ t = { s with answer := t.answer, refused := t.refused } ∧ refuse r t = .next t := by
  refine ⟨_, refuse_eq r s, rfl, ?_⟩
  rw [refuse_eq]
  cases s.refused <;> rfl

/-- Settles O44: an aligned read of an admitted width is a load, every other read of the block is refused. -/
theorem readsHaveNoSideEffects : Obligations.ReadsHaveNoSideEffects := by
  unfold Obligations.ReadsHaveNoSideEffects
  intro a n s hr
  by_cases hadm : aligned a n = true ∧ (n = .w4 ∨ route s.cfg a = .memoryImage ∨ route s.cfg a = .unmapped)
  · obtain ⟨ha, hn⟩ := hadm
    obtain ⟨d, hd, hx⟩ := decode_read_loads ha hr hn
    exact ⟨{ s with answer := .data d }, hx s.answer, rfl, fun _ _ => ⟨rfl, d, rfl, hd⟩, hx (.data d)⟩
  · have hrefused : ∃ r, ∀ t, exec (decode s.cfg (.bus (.read a n))) t = refuse r t := by
      rcases decode_read_refused hr fun ha hn => hadm ⟨ha, hn⟩ with hd | hd
      all_goals
        rw [hd]
        exact ⟨_, fun _ => rfl⟩
    obtain ⟨r, hx⟩ := hrefused
    obtain ⟨t, ht, hframe, hagain⟩ := refuse_again r s
    have hcfg : t.cfg = s.cfg := by rw [hframe]
    exact ⟨t, (hx s).trans ht, hframe, fun ha hn => absurd ⟨ha, hn⟩ hadm, by rw [hcfg, hx t, hagain]⟩

end Sys2Proof.Machine
end

section
/-! PROOFS. The address map is a tiling (spec/20_memory.md R71, R72): each row begins where the row before it ends, so each
address lies in exactly one row, and Route names that row's owner. -/

namespace Sys2Proof.Machine

open Sys2Proof

/-- The rows, in their order, tile the addresses from lo up to stop, stop not included. -/
def Tiles : Nat → Nat → List Region → Prop
  | lo, stop, [] => lo = stop
  | lo, stop, r :: rs => r.lo = lo ∧ r.lo ≤ r.hi ∧ Tiles (r.hi + 1) stop rs

theorem Region.holds_iff (r : Region) (a : Nat) : r.holds a = true ↔ r.lo ≤ a ∧ a ≤ r.hi := by
  simp [Region.holds]

/-- No row of a tiling holds an address below it. -/
theorem Tiles.le_of_holds {lo stop a : Nat} {rs : List Region} (h : Tiles lo stop rs) {r : Region} (hr : r ∈ rs)
    (ha : r.holds a = true) : lo ≤ a := by
  induction rs generalizing lo with
  | nil => cases hr
  | cons q qs ih =>
    obtain ⟨hlo, hle, htail⟩ := h
    rcases List.mem_cons.1 hr with rfl | hr
    · exact hlo ▸ ((r.holds_iff a).1 ha).1
    · have := ih htail hr
      omega

/-- Each address of a tiling lies in exactly one row, which is the row that decides the route. -/
theorem Tiles.existsUnique_row {lo stop a : Nat} {rs : List Region} (h : Tiles lo stop rs) (hlo : lo ≤ a) (ha : a < stop) :
    ∃ r ∈ rs, r.holds a = true ∧ routeIn rs a = r.owner ∧ ∀ r' ∈ rs, r'.holds a = true → r' = r := by
  induction rs generalizing lo with
  | nil => exact absurd (show lo = stop from h) (by omega)
  | cons q qs ih =>
    obtain ⟨hq, -, htail⟩ := h
    cases hh : q.holds a with
    | true =>
      refine ⟨q, List.mem_cons_self, hh, by rw [routeIn, if_pos hh], fun r' hr' ha' => ?_⟩
      rcases List.mem_cons.1 hr' with rfl | hr'
      · rfl
      · have hqa := ((q.holds_iff a).1 hh).2
        have := htail.le_of_holds hr' ha'
        omega
    | false =>
      have hqa : ¬ (q.lo ≤ a ∧ a ≤ q.hi) := by rw [← q.holds_iff, hh]; exact Bool.false_ne_true
      obtain ⟨r, hr, hra, hroute, huniq⟩ := ih htail (by omega)
      refine ⟨r, List.mem_cons_of_mem q hr, hra, by rw [routeIn, if_neg (by simp [hh]), hroute], fun r' hr' ha' => ?_⟩
      rcases List.mem_cons.1 hr' with rfl | hr'
      · exact absurd ha' (by simp [hh])
      · exact huniq r' hr' ha'

/-- Under the default bases the map tiles the 32-bit space (R71). -/
theorem regions_tile {c : Config} (h : c.bases = Bases.default) : Tiles 0 (2 ^ 32) (regions c) := by
  have hsize := rdramBytes_cases c
  rw [regions_default h]
  simp only [Tiles, true_and]
  omega

/-- Each address lies in exactly one row of the map, and Route names its owner (R72). -/
theorem route_row {c : Config} (h : c.bases = Bases.default) (a : Word) :
    ∃ r ∈ regions c, r.holds a.toNat = true ∧ route c a = r.owner ∧ ∀ r' ∈ regions c, r'.holds a.toNat = true → r' = r :=
  (regions_tile h).existsUnique_row (Nat.zero_le _) a.isLt

/-- An address is routed to an owner exactly where a row of that owner holds it. -/
theorem route_eq_iff {c : Config} (h : c.bases = Bases.default) (a : Word) (o : Owner) :
    route c a = o ↔ ∃ r ∈ regions c, r.owner = o ∧ r.holds a.toNat = true := by
  obtain ⟨r, hr, hra, hroute, huniq⟩ := route_row h a
  constructor
  · exact fun ho => ⟨r, hr, hroute.symm.trans ho, hra⟩
  · rintro ⟨r', hr', ho, ha'⟩
    rw [hroute, ← huniq r' hr' ha', ho]

/-- The memory image is the addresses below its size (R71). -/
theorem route_memoryImage_iff {c : Config} (h : c.bases = Bases.default) (a : Word) :
    route c a = .memoryImage ↔ a.toNat < c.rdramBytes := by
  have hsize := rdramBytes_cases c
  rw [route_eq_iff h, regions_default h]
  simp only [Region.holds_iff, List.mem_cons, List.not_mem_nil, or_false, exists_eq_or_imp, ↓existsAndEq, reduceCtorEq,
    true_and, false_and, and_false, or_self]
  omega

/-- A read of an address of no owner answers the open-bus value and changes nothing else (R155). -/
theorem exec_decode_unmapped_read {s : State} {a : Word} {n : Width} (hr : route s.cfg a = .unmapped)
    (ha : aligned a n = true) :
    exec (decode s.cfg (.bus (.read a n))) s = .next { s with answer := .data (openBusData s.cfg n) } := by
  rw [decode_read_of_aligned ha, hr]
  rfl

/-- A write to an address of no owner changes nothing but the answer (R156). -/
theorem exec_decode_unmapped_write {s : State} {a : Word} {d : Data} (hr : route s.cfg a = .unmapped)
    (ha : aligned a d.width = true) :
    exec (decode s.cfg (.bus (.write a d))) s = .next { s with answer := .nothing } := by
  have hd : decode s.cfg (.bus (.write a d)) = decodeOwned s.cfg (.write a d) (route s.cfg a) :=
    decodeBus_of_aligned s.cfg ha
  rw [hd, hr]
  rfl

/-- Settles O46: an owner's addresses are those of its rows, and the rows tile the 32-bit space. -/
theorem addressMapTotal : Obligations.AddressMapTotal := by
  unfold Obligations.AddressMapTotal
  intro c a h
  have hnoop : route c a = .unmapped → ∀ s : State, s.cfg = c →
      (∀ n, aligned a n = true →
        exec (decode c (.bus (.read a n))) s = .next { s with answer := .data (openBusData c n) }) ∧
      ∀ d : Data, aligned a d.width = true →
        exec (decode c (.bus (.write a d))) s = .next { s with answer := .nothing } := by
    rintro hr s rfl
    exact ⟨fun n ha => exec_decode_unmapped_read hr ha, fun d ha => exec_decode_unmapped_write hr ha⟩
  refine ⟨congrArg RdramSize.bytes, congrArg RdramSize.bytes, route_memoryImage_iff h a, ?_, ?_, ?_, ?_, ?_, ?_, ?_, ?_,
    route_row h a, hnoop⟩
  all_goals
    rw [route_eq_iff h, regions_default h]
    simp [Region.holds_iff]

end Sys2Proof.Machine
end

section
/-! PROOFS. Which operation a step performs (spec/20_memory.md R82, R83): the oldest one issued, where it is not held. -/

namespace Sys2Proof.Machine

open Sys2Proof

/-- Before CONSTRUCT no other operation is performed (R340). -/
theorem perform_absent {s : State} (h : s.phase = .absent) (i : Instr) :
    perform i s = if i = .portConstruct then exec .portConstruct s else .fault .noBlock := by
  unfold perform
  rw [h]
  split
  next hl => cases hl
  next => rw [if_pos rfl]
  next hi => rw [if_neg hi]

/-- The oldest operation is the one picked, unless it is held (R83). -/
theorem pick_head {s : State} {e : Issued} (rest : List Issued) (h : held s (decode s.cfg e.request) = false) :
    pick s false (e :: rest) = some (e, rest) := by
  rw [pick, h, if_neg (by simp)]

/-- With nothing issued the machine stays as it is (R308). -/
theorem step_idle {s : State} (h : s.pending = []) : step s = .next s := by
  rw [step, stepIssued, h]

/-- A step performs the oldest operation on the state without it, unless it is held (R82, R83). -/
theorem step_head {e : Issued} {rest : List Issued} {s : State} (hp : s.pending = e :: rest)
    (hh : held s (decode s.cfg e.request) = false) :
    step s = perform (decode s.cfg e.request) (s.withPending rest) := by
  rw [step, stepIssued, hp]
  simp only [pick_head rest hh]

/-- What is held does not depend on the issue queue. -/
theorem held_withPending (s : State) (es : List Issued) (i : Instr) : held (s.withPending es) i = held s i := rfl

/-- Settles O53: the head of the queue is what the step picks, and a table word is put at the head. -/
theorem stepRunsDecoded : Obligations.StepRunsDecoded := by
  unfold Obligations.StepRunsDecoded
  refine ⟨fun e rest s hl hp hh => ?_, fun w s hl hh => ?_, fun s hp => step_idle hp, fun e rest s ha hp hh => ?_⟩
  · exact (step_head hp hh).trans (perform_live (s := s.withPending rest) hl _)
  · have hh' : held (s.withFetchWord 32 w) (decode s.cfg (tableRequest (BitVec.ofNat 32 w))) = false :=
      (held_withPending s _ _).trans hh
    exact (step_head rfl hh').trans (perform_live hl _)
  · exact (step_head hp hh).trans (perform_absent (s := s.withPending rest) ha _)

end Sys2Proof.Machine
end

section
/-! PROOFS. Encoding and decoding are inverse (spec/30_encoding.md R100 .. R116): every request is the encoding of a
well-formed operation, and decoding takes the encoding of a well-formed operation back to it. -/

namespace Sys2Proof.Laws.RoundTrip

open Sys2Proof

/-- Row by row of the opcode table, the law of its constructor. -/
theorem statement_of_instr : ∀ i : Instr, Statement i
  | .swMiMode v => swMiMode v
  | .lwMiMode => lwMiMode
  | .swMiVersion v => swMiVersion v
  | .lwMiVersion => lwMiVersion
  | .swMiIntr v => swMiIntr v
  | .lwMiIntr => lwMiIntr
  | .swMiMaskWholesale v => swMiMaskWholesale v
  | .swMiMaskBitpair v => swMiMaskBitpair v
  | .lwMiMask => lwMiMask
  | .swAiDramAddr v => swAiDramAddr v
  | .lwAiDramAddr => lwAiDramAddr
  | .swAiLen v => swAiLen v
  | .lwAiLen => lwAiLen
  | .swAiControl v => swAiControl v
  | .lwAiControl => lwAiControl
  | .swAiStatus v => swAiStatus v
  | .lwAiStatus => lwAiStatus
  | .swAiDacrate v => swAiDacrate v
  | .lwAiDacrate => lwAiDacrate
  | .swAiBitrate v => swAiBitrate v
  | .lwAiBitrate => lwAiBitrate
  | .swSiDramAddr v => swSiDramAddr v
  | .lwSiDramAddr => lwSiDramAddr
  | .swSiPifAdRd64b v => swSiPifAdRd64b v
  | .lwSiPifAdRd64b => lwSiPifAdRd64b
  | .swSiPifAdWr64b v => swSiPifAdWr64b v
  | .lwSiPifAdWr64b => lwSiPifAdWr64b
  | .swSiStatus v => swSiStatus v
  | .lwSiStatus => lwSiStatus
  | .swDpcStart v => swDpcStart v
  | .lwDpcStart => lwDpcStart
  | .swDpcEnd v => swDpcEnd v
  | .lwDpcEnd => lwDpcEnd
  | .swDpcCurrent v => swDpcCurrent v
  | .lwDpcCurrent => lwDpcCurrent
  | .swDpcStatus v => swDpcStatus v
  | .lwDpcStatus => lwDpcStatus
  | .swDpcClock v => swDpcClock v
  | .lwDpcClock => lwDpcClock
  | .swDpcBufbusy v => swDpcBufbusy v
  | .lwDpcBufbusy => lwDpcBufbusy
  | .swDpcPipebusy v => swDpcPipebusy v
  | .lwDpcPipebusy => lwDpcPipebusy
  | .swDpcTmem v => swDpcTmem v
  | .lwDpcTmem => lwDpcTmem
  | .swRiMode v => swRiMode v
  | .lwRiMode => lwRiMode
  | .swRiConfig v => swRiConfig v
  | .lwRiConfig => lwRiConfig
  | .swRiCurrentLoad v => swRiCurrentLoad v
  | .lwRiCurrentLoad => lwRiCurrentLoad
  | .swRiSelect v => swRiSelect v
  | .lwRiSelect => lwRiSelect
  | .swRiRefresh v => swRiRefresh v
  | .lwRiRefresh => lwRiRefresh
  | .swRiLatency v => swRiLatency v
  | .lwRiLatency => lwRiLatency
  | .swRiRerror v => swRiRerror v
  | .lwRiRerror => lwRiRerror
  | .swRiWerror v => swRiWerror v
  | .lwRiWerror => lwRiWerror
  | .lwPifRam j => lwPifRam j
  | .swPifRam j v => swPifRam j v
  | .lwMiReserved off => lwMiReserved off
  | .swMiReserved off v => swMiReserved off v
  | .lwAiReserved off => lwAiReserved off
  | .swAiReserved off v => swAiReserved off v
  | .lwSiReserved off => lwSiReserved off
  | .swSiReserved off v => swSiReserved off v
  | .lwDpcReserved off => lwDpcReserved off
  | .swDpcReserved off v => swDpcReserved off v
  | .lwRiReserved off => lwRiReserved off
  | .swRiReserved off v => swRiReserved off v
  | .lbMem a => lbMem a
  | .sbMem a v => sbMem a v
  | .lhMem a => lhMem a
  | .shMem a v => shMem a v
  | .lwMem a => lwMem a
  | .swMem a v => swMem a v
  | .ldMem a => ldMem a
  | .sdMem a v => sdMem a v
  | .extR a n => extR a n
  | .extW a d => extW a d
  | .unmappedR a n => unmappedR a n
  | .unmappedW a d => unmappedW a d
  | .refuseUnsupportedWidth op => refuseUnsupportedWidth op
  | .refuseMisalignedBusAccess op => refuseMisalignedBusAccess op
  | .portQueryIrq => portQueryIrq
  | .portAdvance t => portAdvance t
  | .portConstruct => portConstruct
  | .portRaiseSource k => portRaiseSource k
  | .portClearSource k => portClearSource k
  | .portQueryCmdReady => portQueryCmdReady
  | .portQueryFrameFinished => portQueryFrameFinished
  | .portExportWords => portExportWords
  | .portExportRowLengths => portExportRowLengths
  | .portClearCommands => portClearCommands
  | .portClearFrameFinished => portClearFrameFinished
  | .refuseUnknownPortOp word => refuseUnknownPortOp word

end Sys2Proof.Laws.RoundTrip

namespace Sys2Proof.Machine

open Sys2Proof

/-- Settles O51: the round trip of each constructor. -/
theorem decodeEncode : Obligations.DecodeEncode := by
  unfold Obligations.DecodeEncode
  exact fun c i h hw => Laws.RoundTrip.statement_of_instr i c h hw

/-- The operation is well formed and r is its request. -/
def Encodes (c : Config) (i : Instr) (r : Request) : Prop := encode c i = r ∧ WellFormed c i = true

/-- A well-formed operation is what its request decodes to. -/
theorem Encodes.decode_eq {c : Config} {i : Instr} {r : Request} (h : c.bases = Bases.default) (hi : Encodes c i r) :
    decode c r = i := by
  obtain ⟨rfl, hw⟩ := hi
  exact decodeEncode c i h hw

/-! ## Register blocks

In the lemmas of this section the last case of the split is a reserved offset; every other case is one register. -/

/-- An offset enters a request by its number alone. -/
theorem encodes_readAt_of_toNat {c : Config} {i : Instr} {base : Word} {off : BitVec 20} {n : Nat} (hn : off.toNat = n)
    (h : Encodes c i (readAt base (BitVec.ofNat 32 n))) : Encodes c i (readAt base (off.setWidth 32)) := by
  rwa [← BitVec.ofNat_toNat, hn]

theorem encodes_writeAt_of_toNat {c : Config} {i : Instr} {base v : Word} {off : BitVec 20} {n : Nat}
    (hn : off.toNat = n) (h : Encodes c i (writeAt base (BitVec.ofNat 32 n) v)) :
    Encodes c i (writeAt base (off.setWidth 32) v) := by
  rwa [← BitVec.ofNat_toNat, hn]

section
variable {c : Config} {off : BitVec 20} (h : off.toNat % 4 = 0)
include h

theorem readMi_encodes : Encodes c (readMi off) (readAt c.bases.mi (off.setWidth 32)) := by
  unfold readMi
  split
  case h_5 => exact ⟨rfl, show miReserved off = true by grind [miReserved]⟩
  all_goals exact encodes_readAt_of_toNat ‹_› ⟨rfl, rfl⟩

theorem writeMi_encodes (v : Word) : Encodes c (writeMi c off v) (writeAt c.bases.mi (off.setWidth 32) v) := by
  unfold writeMi
  split
  case h_4 hn =>
    refine encodes_writeAt_of_toNat hn ?_
    unfold writeMiMask
    split
    next hm => exact ⟨rfl, decide_eq_true hm⟩
    next hm => exact ⟨rfl, decide_eq_true hm⟩
  case h_5 => exact ⟨rfl, show miReserved off = true by grind [miReserved]⟩
  all_goals exact encodes_writeAt_of_toNat ‹_› ⟨rfl, rfl⟩

theorem readAi_encodes : Encodes c (readAi off) (readAt c.bases.ai (off.setWidth 32)) := by
  unfold readAi
  split
  case h_7 => exact ⟨rfl, show aiReserved off = true by grind [aiReserved]⟩
  all_goals exact encodes_readAt_of_toNat ‹_› ⟨rfl, rfl⟩

theorem writeAi_encodes (v : Word) : Encodes c (writeAi off v) (writeAt c.bases.ai (off.setWidth 32) v) := by
  unfold writeAi
  split
  case h_7 => exact ⟨rfl, show aiReserved off = true by grind [aiReserved]⟩
  all_goals exact encodes_writeAt_of_toNat ‹_› ⟨rfl, rfl⟩

theorem readSi_encodes : Encodes c (readSi off) (readAt c.bases.si (off.setWidth 32)) := by
  unfold readSi
  split
  case h_5 => exact ⟨rfl, show siReserved off = true by grind [siReserved]⟩
  all_goals exact encodes_readAt_of_toNat ‹_› ⟨rfl, rfl⟩

theorem writeSi_encodes (v : Word) : Encodes c (writeSi off v) (writeAt c.bases.si (off.setWidth 32) v) := by
  unfold writeSi
  split
  case h_5 => exact ⟨rfl, show siReserved off = true by grind [siReserved]⟩
  all_goals exact encodes_writeAt_of_toNat ‹_› ⟨rfl, rfl⟩

theorem readDpc_encodes : Encodes c (readDpc off) (readAt c.bases.dpc (off.setWidth 32)) := by
  unfold readDpc
  split
  case h_9 => exact ⟨rfl, show dpcReserved off = true by grind [dpcReserved]⟩
  all_goals exact encodes_readAt_of_toNat ‹_› ⟨rfl, rfl⟩

theorem writeDpc_encodes (v : Word) : Encodes c (writeDpc off v) (writeAt c.bases.dpc (off.setWidth 32) v) := by
  unfold writeDpc
  split
  case h_9 => exact ⟨rfl, show dpcReserved off = true by grind [dpcReserved]⟩
  all_goals exact encodes_writeAt_of_toNat ‹_› ⟨rfl, rfl⟩

theorem readRi_encodes : Encodes c (readRi off) (readAt c.bases.ri (off.setWidth 32)) := by
  unfold readRi
  split
  case h_9 => exact ⟨rfl, show riReserved off = true by grind [riReserved]⟩
  all_goals exact encodes_readAt_of_toNat ‹_› ⟨rfl, rfl⟩

theorem writeRi_encodes (v : Word) : Encodes c (writeRi off v) (writeAt c.bases.ri (off.setWidth 32) v) := by
  unfold writeRi
  split
  case h_9 => exact ⟨rfl, show riReserved off = true by grind [riReserved]⟩
  all_goals exact encodes_writeAt_of_toNat ‹_› ⟨rfl, rfl⟩

end

/-! ## Accesses by owner -/

/-- An operation on a register block or PIF RAM, aligned and not refused for its width, is a 4-byte one (R157). -/
theorem width_eq_w4 {c : Config} {op : BusOp} (ha : aligned op.addr op.width = true)
    (hu : unsupportedWidth c op = false) (hr : (route c op.addr).isRegisterBlock = true ∨ route c op.addr = .pifRam) :
    op.width = .w4 := by
  by_contra hn
  obtain ⟨hb, hp⟩ : (route c op.addr).isRegisterBlock = false ∧ route c op.addr ≠ .pifRam := by
    simpa [unsupportedWidth, ha, hn] using hu
  rcases hr with hr | hr
  · exact Bool.false_ne_true (hb.symm.trans hr)
  · exact hp hr

/-- A 4-byte bus operation is a word read or a word write, its address given as a base and a displacement. -/
theorem eq_readAt_or_writeAt {op : BusOp} {base d : Word} (hw : op.width = .w4) (ha : op.addr = base + d) :
    Request.bus op = readAt base d ∨ ∃ v, Request.bus op = writeAt base d v := by
  cases op with
  | read a n =>
    obtain rfl : n = .w4 := hw
    obtain rfl : a = base + d := ha
    exact .inl rfl
  | write a x =>
    obtain rfl : a = base + d := ha
    cases x with
    | w v => exact .inr ⟨v, rfl⟩
    | b _ | h _ | d _ => cases hw

/-- Where each register's read and write have their requests, each 4-byte access of the block is one of these (R73). -/
theorem exists_encodes_register {c : Config} {op : BusOp} {base : Word} {read : BitVec 20 → Instr}
    {write : BitVec 20 → Word → Instr}
    (hread : ∀ off : BitVec 20, off.toNat % 4 = 0 → Encodes c (read off) (readAt base (off.setWidth 32)))
    (hwrite : ∀ off : BitVec 20, off.toNat % 4 = 0 → ∀ v, Encodes c (write off v) (writeAt base (off.setWidth 32) v))
    (hbase : base.toNat % 4 = 0) (hw : op.width = .w4) (ha : aligned op.addr op.width = true)
    (hrange : base.toNat ≤ op.addr.toNat ∧ op.addr.toNat ≤ base.toNat + 0xFFFFF) : ∃ i, Encodes c i (.bus op) := by
  have ha4 : op.addr.toNat % 4 = 0 := by simpa [aligned, hw, Width.bytes] using ha
  obtain ⟨hlo, hhi⟩ := hrange
  have hlt := op.addr.isLt
  obtain ⟨off, hoff⟩ : ∃ off : BitVec 20, off.toNat = op.addr.toNat - base.toNat :=
    ⟨BitVec.ofNat 20 (op.addr.toNat - base.toNat), Nat.mod_eq_of_lt (by omega)⟩
  have haddr : op.addr = base + off.setWidth 32 := by
    apply BitVec.eq_of_toNat_eq
    simp only [BitVec.toNat_add, BitVec.toNat_setWidth, hoff]
    omega
  rcases eq_readAt_or_writeAt hw haddr with hop | ⟨v, hop⟩
  · exact ⟨_, hop ▸ hread off (by omega)⟩
  · exact ⟨_, hop ▸ hwrite off (by omega) v⟩

/-- A 4-byte access of PIF RAM is that of one of its sixteen words (R91). -/
theorem exists_encodes_pif {c : Config} {op : BusOp} (hbase : c.bases.pifRam.toNat % 4 = 0) (hw : op.width = .w4)
    (ha : aligned op.addr op.width = true)
    (hrange : c.bases.pifRam.toNat ≤ op.addr.toNat ∧ op.addr.toNat ≤ c.bases.pifRam.toNat + 0x3F) :
    ∃ i, Encodes c i (.bus op) := by
  have ha4 : op.addr.toNat % 4 = 0 := by simpa [aligned, hw, Width.bytes] using ha
  obtain ⟨hlo, hhi⟩ := hrange
  have hlt := op.addr.isLt
  obtain ⟨j, hj⟩ : ∃ j : BitVec 4, j.toNat = (op.addr.toNat - c.bases.pifRam.toNat) / 4 :=
    ⟨BitVec.ofNat 4 ((op.addr.toNat - c.bases.pifRam.toNat) / 4), Nat.mod_eq_of_lt (by omega)⟩
  have haddr : op.addr = c.bases.pifRam + 4#32 * j.setWidth 32 := by
    apply BitVec.eq_of_toNat_eq
    simp only [BitVec.toNat_add, BitVec.toNat_mul, BitVec.toNat_setWidth, BitVec.toNat_ofNat, hj]
    omega
  rcases eq_readAt_or_writeAt hw haddr with hop | ⟨v, hop⟩
  · exact ⟨.lwPifRam j, hop.symm, rfl⟩
  · exact ⟨.swPifRam j v, hop.symm, rfl⟩

/-- An address routed to a register block or to PIF RAM lies in its range (R71). -/
theorem range_of_route {c : Config} (h : c.bases = Bases.default) (a : Word) :
    (route c a = .mi → c.bases.mi.toNat ≤ a.toNat ∧ a.toNat ≤ c.bases.mi.toNat + 0xFFFFF) ∧
    (route c a = .ai → c.bases.ai.toNat ≤ a.toNat ∧ a.toNat ≤ c.bases.ai.toNat + 0xFFFFF) ∧
    (route c a = .si → c.bases.si.toNat ≤ a.toNat ∧ a.toNat ≤ c.bases.si.toNat + 0xFFFFF) ∧
    (route c a = .dpc → c.bases.dpc.toNat ≤ a.toNat ∧ a.toNat ≤ c.bases.dpc.toNat + 0xFFFFF) ∧
    (route c a = .ri → c.bases.ri.toNat ≤ a.toNat ∧ a.toNat ≤ c.bases.ri.toNat + 0xFFFFF) ∧
    (route c a = .pifRam → c.bases.pifRam.toNat ≤ a.toNat ∧ a.toNat ≤ c.bases.pifRam.toNat + 0x3F) := by
  simp [route_eq_iff h, regions, blockRegion, Region.holds_iff]

theorem decodeMemory_encodes {c : Config} {op : BusOp} (ho : owned c .memoryImage op.addr op.width = true) :
    Encodes c (decodeMemory op) (.bus op) := by
  cases op with
  | read a n => cases n <;> exact ⟨rfl, ho⟩
  | write a d => cases d <;> exact ⟨rfl, ho⟩

theorem decodeExternal_encodes {c : Config} {op : BusOp} (ho : owned c .external op.addr op.width = true) :
    Encodes c (decodeExternal op) (.bus op) := by
  cases op <;> exact ⟨rfl, ho⟩

theorem decodeUnmapped_encodes {c : Config} {op : BusOp} (ho : owned c .unmapped op.addr op.width = true) :
    Encodes c (decodeUnmapped op) (.bus op) := by
  cases op <;> exact ⟨rfl, ho⟩

/-! ## Every bus operation is a request of a well-formed operation -/

/-- Each bus operation is the request of a well-formed operation: the tests of R102 in their order, then the owners. -/
theorem exists_encodes_bus {c : Config} (h : c.bases = Bases.default) (op : BusOp) : ∃ i, Encodes c i (.bus op) := by
  cases ha : aligned op.addr op.width with
  | false => exact ⟨.refuseMisalignedBusAccess op, rfl, by simp [WellFormed, ha]⟩
  | true =>
    cases hu : unsupportedWidth c op with
    | true => exact ⟨.refuseUnsupportedWidth op, rfl, hu⟩
    | false =>
      have hw := width_eq_w4 ha hu
      have howned : owned c (route c op.addr) op.addr op.width = true := by simp [owned, ha]
      obtain ⟨hmi, hai, hsi, hdpc, hri, hpif⟩ := range_of_route h op.addr
      cases ho : route c op.addr with
      | memoryImage => exact ⟨_, decodeMemory_encodes (ho ▸ howned)⟩
      | external => exact ⟨_, decodeExternal_encodes (ho ▸ howned)⟩
      | unmapped => exact ⟨_, decodeUnmapped_encodes (ho ▸ howned)⟩
      | mi =>
        exact exists_encodes_register (fun _ => readMi_encodes) (fun _ => writeMi_encodes) (by rw [h]; rfl)
          (hw (.inl (by rw [ho]; rfl))) ha (hmi ho)
      | ai =>
        exact exists_encodes_register (fun _ => readAi_encodes) (fun _ => writeAi_encodes) (by rw [h]; rfl)
          (hw (.inl (by rw [ho]; rfl))) ha (hai ho)
      | si =>
        exact exists_encodes_register (fun _ => readSi_encodes) (fun _ => writeSi_encodes) (by rw [h]; rfl)
          (hw (.inl (by rw [ho]; rfl))) ha (hsi ho)
      | dpc =>
        exact exists_encodes_register (fun _ => readDpc_encodes) (fun _ => writeDpc_encodes) (by rw [h]; rfl)
          (hw (.inl (by rw [ho]; rfl))) ha (hdpc ho)
      | ri =>
        exact exists_encodes_register (fun _ => readRi_encodes) (fun _ => writeRi_encodes) (by rw [h]; rfl)
          (hw (.inl (by rw [ho]; rfl))) ha (hri ho)
      | pifRam => exact exists_encodes_pif (by rw [h]; rfl) (hw (.inr ho)) ha (hpif ho)

/-! ## Every port request is a request of a well-formed operation -/

/-- R101 gives the operand t to ADVANCE only: any other port request stands for the one with t = 0 (log entry 13). -/
def canonicalRequest : Request → Request
  | .bus op => .bus op
  | .port word t => .port word (if word = 0x02000000#32 then t else 0)

/-- R113 row by row: code, k and operation. -/
def portRows (t : Nat) : List (Byte × Byte × Instr) :=
  [ (0x10#8, 0#8, .portRaiseSource .sp), (0x11#8, 0#8, .portClearSource .sp), (0x10#8, 3#8, .portRaiseSource .vi),
    (0x11#8, 3#8, .portClearSource .vi), (0x10#8, 4#8, .portRaiseSource .pi), (0x11#8, 4#8, .portClearSource .pi),
    (0x01#8, 0#8, .portQueryIrq), (0x02#8, 0#8, .portAdvance t), (0x03#8, 0#8, .portConstruct),
    (0x20#8, 0#8, .portQueryCmdReady), (0x21#8, 0#8, .portQueryFrameFinished), (0x22#8, 0#8, .portExportWords),
    (0x23#8, 0#8, .portExportRowLengths), (0x24#8, 0#8, .portClearCommands), (0x25#8, 0#8, .portClearFrameFinished) ]

theorem ofNumber_eq_some_iff {k : Byte} {e : ExtSource} : ExtSource.ofNumber k = some e ↔ k = e.number := by
  unfold ExtSource.ofNumber
  constructor
  · intro h
    split_ifs at h
    all_goals
      cases h
      assumption
  · rintro rfl
    cases e <;> rfl

/-- The table as the model tests it, code by code, is R113 row by row. -/
theorem portTable_eq_some_iff (code k : Byte) (t : Nat) (i : Instr) :
    portTable code k t = some i ↔ (code, k, i) ∈ portRows t := by
  constructor
  · intro h
    unfold portTable at h
    -- the two codes that take a source number
    iterate 2
      rcases ite_eq_iff.1 h with ⟨rfl, hi⟩ | ⟨-, h⟩
      · obtain ⟨e, he, rfl⟩ := Option.map_eq_some_iff.1 hi
        rw [ofNumber_eq_some_iff.1 he]
        cases e <;> simp [portRows, ExtSource.number]
    rcases ite_eq_iff.1 h with ⟨-, hi⟩ | ⟨hk, h⟩
    · cases hi
    rw [not_not.1 hk]
    -- the nine codes that take k = 0
    iterate 9
      rcases ite_eq_iff.1 h with ⟨rfl, hi⟩ | ⟨-, h⟩
      · cases hi
        simp [portRows]
    cases h
  · intro h
    simp only [portRows, List.mem_cons, Prod.mk.injEq, List.not_mem_nil, or_false] at h
    rcases h with h | h | h | h | h | h | h | h | h | h | h | h | h | h | h
    all_goals
      obtain ⟨rfl, rfl, rfl⟩ := h
      rfl

/-- Each row of R113's table is an operation whose request is the word with that code and that k. -/
theorem portTable_encodes (c : Config) {code k : Byte} {t : Nat} {i : Instr} (h : portTable code k t = some i) :
    Encodes c i (canonicalRequest (.port (portWord code k) t)) := by
  rw [portTable_eq_some_iff] at h
  simp only [portRows, List.mem_cons, Prod.mk.injEq, List.not_mem_nil, or_false] at h
  rcases h with h | h | h | h | h | h | h | h | h | h | h | h | h | h | h
  all_goals
    obtain ⟨rfl, rfl, rfl⟩ := h
    exact ⟨rfl, rfl⟩

/-- The codes and the k of R113's table, in numbers. -/
theorem portTable_isSome_iff (code k : Byte) (t : Nat) :
    (portTable code k t).isSome = true ↔
      (code.toNat ∈ [0x10, 0x11] ∧ k.toNat ∈ [0, 3, 4]) ∨
        (code.toNat ∈ [0x01, 0x02, 0x03, 0x20, 0x21, 0x22, 0x23, 0x24, 0x25] ∧ k.toNat = 0) := by
  have hrow (x y : Byte) (r : Instr) : (∃ i, code = x ∧ k = y ∧ i = r) ↔ code.toNat = x.toNat ∧ k.toNat = y.toNat := by
    simp [← BitVec.toNat_inj]
  simp only [Option.isSome_iff_exists, portTable_eq_some_iff, portRows, List.mem_cons, Prod.mk.injEq, List.not_mem_nil,
    or_false, exists_or, hrow]
  simp [and_or_left, or_and_right, or_assoc]

/-- Whether a port word names an operation does not depend on the operand t. -/
theorem portWordKnown_iff (word : Word) (t : Nat) :
    portWordKnown word = true ↔ portZero word = 0#16 ∧ (portTable (portCode word) (portK word) t).isSome = true := by
  simp only [portWordKnown, Bool.and_eq_true, decide_eq_true_eq, portTable_isSome_iff]

/-- A port word whose bits 23:8 are 0 is built from its code and its k (R101). -/
theorem portWord_fields {word : Word} (h : portZero word = 0#16) : portWord (portCode word) (portK word) = word := by
  have hhigh : word.extractLsb' 24 8 ++ word.extractLsb' 8 16 = word.extractLsb' 8 24 :=
    BitVec.extractLsb'_append_extractLsb'_eq_extractLsb' rfl
  have hall : word.extractLsb' 8 24 ++ word.extractLsb' 0 8 = word.extractLsb' 0 32 :=
    BitVec.extractLsb'_append_extractLsb'_eq_extractLsb' rfl
  rw [portWord, ← h, portCode, portZero, portK, hhigh]
  exact hall.trans BitVec.extractLsb'_eq_self

theorem decodePort_of_row {word : Word} {t : Nat} {i : Instr} (hz : portZero word = 0#16)
    (h : portTable (portCode word) (portK word) t = some i) : decodePort word t = i := by
  rw [decodePort, if_pos hz, h, Option.getD_some]

theorem decodePort_of_unknown {word : Word} (h : portWordKnown word = false) (t : Nat) :
    decodePort word t = .refuseUnknownPortOp word := by
  rw [← Bool.not_eq_true, portWordKnown_iff word t] at h
  unfold decodePort
  split
  next hz => rw [Option.not_isSome_iff_eq_none.1 fun hs => h ⟨hz, hs⟩, Option.getD_none]
  next => rfl

/-- Each port request decodes to a well-formed operation, whose request it is but for an operand that nothing reads. -/
theorem decodePort_encodes (c : Config) (word : Word) (t : Nat) :
    Encodes c (decodePort word t) (canonicalRequest (.port word t)) := by
  cases hk : portWordKnown word with
  | true =>
    obtain ⟨hz, hs⟩ := (portWordKnown_iff word t).1 hk
    obtain ⟨i, hi⟩ := Option.isSome_iff_exists.1 hs
    rw [decodePort_of_row hz hi]
    simpa only [portWord_fields hz] using portTable_encodes c hi
  | false =>
    have hword : word ≠ 0x02000000#32 := by
      rintro rfl
      exact absurd hk (by decide)
    rw [decodePort_of_unknown hk, canonicalRequest, if_neg hword]
    exact ⟨rfl, by simp [WellFormed, hk]⟩

/-! ## Decoding is onto the well-formed operations -/

/-- Each request decodes to a well-formed operation, whose request it is. -/
theorem decode_encodes {c : Config} (h : c.bases = Bases.default) :
    ∀ r : Request, Encodes c (decode c r) (canonicalRequest r)
  | .bus op => by
    obtain ⟨i, hi⟩ := exists_encodes_bus h op
    rw [hi.decode_eq h]
    exact hi
  | .port word t => decodePort_encodes c word t

/-- Settles O52: the request of what a request decodes to is that request. -/
theorem encodeDecode : Obligations.EncodeDecode := by
  unfold Obligations.EncodeDecode
  intro c r h ht
  have henc : encode c (decode c r) = canonicalRequest r := (decode_encodes h r).1
  rw [henc]
  cases r with
  | bus op => rfl
  | port word t =>
    by_cases hw : word = 0x02000000#32
    · rw [canonicalRequest, if_pos hw]
    · rw [canonicalRequest, if_neg hw, ht word t rfl hw]

/-- Settles O50: what a request decodes to has that request, and only a well-formed operation does. -/
theorem decodeWellFormed : Obligations.DecodeWellFormed := by
  unfold Obligations.DecodeWellFormed
  exact fun c r h => (decode_encodes h r).2

/-- The well-formed operations are those that the decoder makes. -/
theorem decode_encode_eq_iff {c : Config} (h : c.bases = Bases.default) (i : Instr) :
    decode c (encode c i) = i ↔ WellFormed c i = true :=
  ⟨fun hi => hi ▸ (decode_encodes h _).2, decodeEncode c i h⟩

/-- Settles O47: a refused form is what its own operation decodes to exactly when it is well formed. -/
theorem busRefusals : Obligations.BusRefusals := by
  unfold Obligations.BusRefusals
  intro c op h
  constructor
  · refine (decode_encode_eq_iff h (.refuseMisalignedBusAccess op)).trans ?_
    simp [WellFormed, aligned]
  · refine (decode_encode_eq_iff h (.refuseUnsupportedWidth op)).trans ?_
    cases hr : route c op.addr <;> simp [WellFormed, unsupportedWidth, aligned, hr, Owner.isRegisterBlock]

/-- A port word is refused exactly when it names no operation, whatever its operand t. -/
theorem decodePort_refused_iff (word : Word) (t : Nat) :
    decodePort word t = .refuseUnknownPortOp word ↔ portWordKnown word = false := by
  constructor
  · intro hd
    have hw : WellFormed Config.default (decodePort word t) = true := (decodePort_encodes Config.default word t).2
    simpa [hd, WellFormed] using hw
  · exact fun h => decodePort_of_unknown h t

theorem portCode_toNat (word : Word) : (portCode word).toNat = word.toNat / 2 ^ 24 := by
  have := word.isLt
  rw [portCode, BitVec.extractLsb'_toNat, Nat.shiftRight_eq_div_pow]
  omega

theorem portK_toNat (word : Word) : (portK word).toNat = word.toNat % 2 ^ 8 := by
  rw [portK, BitVec.extractLsb'_toNat, Nat.shiftRight_zero]

theorem portZero_eq_zero_iff (word : Word) : portZero word = 0#16 ↔ word.toNat / 2 ^ 8 % 2 ^ 16 = 0 := by
  rw [← BitVec.toNat_inj, portZero, BitVec.extractLsb'_toNat, Nat.shiftRight_eq_div_pow, BitVec.toNat_ofNat,
    Nat.zero_mod]

/-- Settles O48: the words that name no operation, in numbers. -/
theorem portRefusals : Obligations.PortRefusals := by
  unfold Obligations.PortRefusals
  intro c word t
  refine (decodePort_refused_iff word t).trans ?_
  rw [← Bool.not_eq_true, portWordKnown_iff word t, portTable_isSome_iff, portZero_eq_zero_iff, portCode_toNat,
    portK_toNat]

/-- An aligned access goes to the owner of its address. -/
theorem owned_of_route {c : Config} {o : Owner} {a : Word} {n : Width} (hr : route c a = o)
    (ha : a.toNat % n.bytes = 0) : owned c o a n = true := by
  simp [owned, aligned, hr, ha]

/-- Settles O49: each row's operation is well formed, and its request is the row's. -/
theorem decodeSpecWords : Obligations.DecodeSpecWords := by
  unfold Obligations.DecodeSpecWords
  refine ⟨fun c v h => ?_, by decide⟩
  obtain ⟨c, rfl⟩ : ∃ c' : Config, c = { c' with bases := Bases.default } := ⟨c, by rw [← h]⟩
  have row {i : Instr} {r : Request} (hi : Encodes { c with bases := Bases.default } i r) :
      decode { c with bases := Bases.default } r = i := hi.decode_eq rfl
  -- MI up to the read of MI_MASK, then its write under either value of the parameter
  iterate 7 refine ⟨row ⟨rfl, rfl⟩, ?_⟩
  refine ⟨fun hm => row ⟨rfl, decide_eq_true hm⟩, fun hm => row ⟨rfl, decide_eq_true hm⟩, ?_⟩
  -- AI, SI, DPC, RI
  iterate 52 refine ⟨row ⟨rfl, rfl⟩, ?_⟩
  refine ⟨fun j => ?pif, fun off hoff => ?reserved, ?_⟩
  case pif =>
    have hj : BitVec.ofNat 32 (4 * j.toNat) = 4#32 * j.setWidth 32 := by
      revert j
      decide
    dsimp only
    rw [hj]
    exact ⟨row ⟨rfl, rfl⟩, row ⟨rfl, rfl⟩⟩
  case reserved =>
    refine ⟨fun ho => ?_, fun ho => ?_, fun ho => ?_, fun ho => ?_, fun ho => ?_⟩
    · have hr : miReserved off = true := by simp [miReserved, hoff, ho]
      exact ⟨row ⟨rfl, hr⟩, row ⟨rfl, hr⟩⟩
    · have hr : aiReserved off = true := by simp [aiReserved, hoff, ho]
      exact ⟨row ⟨rfl, hr⟩, row ⟨rfl, hr⟩⟩
    · have hr : siReserved off = true := by simpa [siReserved, hoff, or_assoc] using ho
      exact ⟨row ⟨rfl, hr⟩, row ⟨rfl, hr⟩⟩
    · have hr : dpcReserved off = true := by simp [dpcReserved, hoff, ho]
      exact ⟨row ⟨rfl, hr⟩, row ⟨rfl, hr⟩⟩
    · have hr : riReserved off = true := by simp [riReserved, hoff, ho]
      exact ⟨row ⟨rfl, hr⟩, row ⟨rfl, hr⟩⟩
  -- the port codes
  iterate 14 refine ⟨row ⟨rfl, rfl⟩, ?_⟩
  refine ⟨fun t => row ⟨rfl, rfl⟩, fun a ha => ?image,
    fun a n x hn hx => ⟨fun hrange => ?external, fun hlo => ?unmapped⟩⟩
  case image =>
    have ho {n : Width} : a.toNat % n.bytes = 0 → owned _ .memoryImage a n = true :=
      owned_of_route (route_memory rfl ha)
    exact ⟨row ⟨rfl, ho (Nat.mod_one _)⟩, fun x => row ⟨rfl, ho (Nat.mod_one _)⟩,
      fun h2 => ⟨row ⟨rfl, ho h2⟩, fun x => row ⟨rfl, ho h2⟩⟩, fun h4 => ⟨row ⟨rfl, ho h4⟩, row ⟨rfl, ho h4⟩⟩,
      fun h8 => ⟨row ⟨rfl, ho h8⟩, fun x => row ⟨rfl, ho h8⟩⟩⟩
  case external =>
    have hr : route { c with bases := Bases.default } a = .external := route_cartridge rfl hrange.1 hrange.2
    exact ⟨row ⟨rfl, owned_of_route hr hn⟩, row ⟨rfl, owned_of_route hr hx⟩⟩
  case unmapped =>
    have hr : route { c with bases := Bases.default } a = .unmapped :=
      route_unmappedHigh rfl hlo (Nat.le_of_lt_succ a.isLt)
    exact ⟨row ⟨rfl, owned_of_route hr hn⟩, row ⟨rfl, owned_of_route hr hx⟩⟩

end Sys2Proof.Machine
end

section
/-! PROOFS. Reading a register back (spec/30_encoding.md R114): a field of the register's mask is stored, and the read
answers it extended to a word. -/

namespace Sys2Proof.Machine

open Sys2Proof

/-- A field of n bits, read as a word, is the word written under the mask of its n low bits. -/
theorem setWidth_field (v : Word) (n : Nat) : (v.setWidth n).setWidth 32 = v &&& (BitVec.allOnes n).setWidth 32 := by
  ext i hi
  simp [BitVec.getLsbD_eq_getElem hi, Bool.and_comm]

theorem pointerField_readback (v : Word) : (pointerField v).setWidth 32 = v &&& 0x00FFFFF8#32 := by
  rw [pointerField, setWidth_field, BitVec.and_assoc]
  rfl

theorem lengthField_readback (v : Word) : (lengthField v).setWidth 32 = v &&& 0x0003FFF8#32 := by
  rw [lengthField, setWidth_field, BitVec.and_assoc]
  rfl

theorem audioPush_len (a : BitVec 24) (len : BitVec 18) (s : State) : (audioPush a len s).ai.len = s.ai.len := by
  by_cases h : s.ai.ready = true ∧ s.ai.fifo.length < 2
  · rw [audioPush_accepted h]
  · rw [audioPush_refused h]

/-- The length is stored whether or not the push is accepted (R171). -/
theorem aiLenWrite_len (v : Word) (s : State) : (aiLenWrite v s).ai.len = lengthField v := audioPush_len _ _ _

/-- A write that leaves the state u s, and then a read that answers f of the state. -/
theorem read_after_write {i j : Instr} {u : State → State} {f : State → Word} {x : Word}
    (hi : ∀ s, exec i s = done (u s)) (hj : ∀ t, exec j t = returningWord (f t) t)
    (hf : ∀ s, f ((u s).withAnswer .nothing) = x) (s : State) : ∃ t r, exec i s = .next t ∧ exec j t = .next r ∧ r.answer = .data (.w x) :=
  ⟨_, _, hi s, hj _, congrArg (Answer.data ∘ Data.w) (hf s)⟩

/-- Settles O45: register by register, the field stored and the mask of its bits. -/
theorem writeThenRead : Obligations.WriteThenRead := by
  unfold Obligations.WriteThenRead
  intro v
  have hword : v = v &&& 0xFFFFFFFF#32 := (BitVec.and_allOnes (x := v)).symm
  simp only [List.forall_mem_cons]
  refine ⟨?aiDramAddr, ?aiLen, ?aiDacrate, ?aiBitrate, ?siDramAddr, ?dpcStart, ?miMask, ?_⟩
  case aiDramAddr | siDramAddr | dpcStart =>
    exact read_after_write (fun _ => rfl) (fun _ => rfl) fun _ => pointerField_readback v
  case aiLen =>
    exact read_after_write (fun _ => rfl) (fun _ => rfl) fun s =>
      (congrArg (BitVec.setWidth 32) (aiLenWrite_len v s)).trans (lengthField_readback v)
  case aiDacrate | aiBitrate | miMask =>
    exact read_after_write (fun _ => rfl) (fun _ => rfl) fun _ => setWidth_field v _
  -- RI: the whole word is stored
  iterate 8 refine ⟨read_after_write (fun _ => rfl) (fun _ => rfl) fun _ => hword, ?_⟩
  exact List.forall_mem_nil _

end Sys2Proof.Machine
end

section
/-! PROOFS. The Interrupt Register (spec/40_interrupt.md R130 .. R142): the words of its reads as numbers, what each write
changes, the aggregate interrupt and the external sources; with its absorbed writes, those of R156 and R250. -/

namespace Sys2Proof.Machine

open Sys2Proof

/-! ## Reads -/

/-- A flag above a word's bits adds its place value. -/
theorem flagBit_or_toNat {b : Bool} {i : Nat} {x : Word} (hi : i < 32) (hx : x.toNat < 2 ^ i) :
    (flagBit b i ||| x).toNat = 2 ^ i * b.toNat + x.toNat := by
  have hb : (flagBit b i).toNat = 2 ^ i * b.toNat := by
    cases b with
    | false => rfl
    | true => simpa [flagBit, Nat.shiftLeft_eq] using Nat.pow_lt_pow_right Nat.one_lt_two hi
  rw [BitVec.toNat_or, hb, Nat.two_pow_add_eq_or_of_lt hx]

/-- The MI_MODE word: the flags at bits 9, 8 and 7 stand above the seven bits of the init length (R132). -/
theorem miModeWord_toNat (m : InterruptRegister) :
    (miModeWord m).toNat =
      m.initLen.toNat + 2 ^ 7 * m.initMode.toNat + 2 ^ 8 * m.ebusTest.toNat + 2 ^ 9 * m.rdramReg.toNat := by
  have hlen := m.initLen.isLt
  have hword : (m.initLen.setWidth 32).toNat = m.initLen.toNat := BitVec.toNat_setWidth_of_le (by decide)
  have h7 := m.initMode.toNat_le
  have h8 := m.ebusTest.toNat_le
  have e7 : (flagBit m.initMode 7 ||| m.initLen.setWidth 32).toNat = 2 ^ 7 * m.initMode.toNat + m.initLen.toNat := by
    rw [flagBit_or_toNat (by decide) (by omega), hword]
  have e8 := flagBit_or_toNat (b := m.ebusTest) (i := 8) (by decide) (show _ < 2 ^ 8 by rw [e7]; omega)
  have e9 := flagBit_or_toNat (b := m.rdramReg) (i := 9) (by decide) (show _ < 2 ^ 9 by rw [e8, e7]; omega)
  rw [miModeWord, BitVec.or_assoc, BitVec.or_assoc, e9, e8, e7]
  omega

/-- Settles O3: the mode word's fields add up, and the other words are stored fields. -/
theorem miReads : Obligations.MiReads := by
  unfold Obligations.MiReads
  refine ⟨fun s => ⟨⟨_, returningWord_eq _ s, miModeWord_toNat s.mi⟩, returningWord_eq _ s,
    ⟨_, returningWord_eq _ s, ?_⟩, ⟨_, returningWord_eq _ s, ?_⟩⟩, rfl⟩
  all_goals exact BitVec.toNat_setWidth_of_le (by decide)

/-! ## Writes -/

/-- An MI_MODE write, field by field (R131). -/
theorem miModeWrite_eq (v : Word) (s : State) :
    miModeWrite v s = { s with
      mi := { s.mi with
        cause := if v.getLsbD 11 then (clearCause .dp s).mi.cause else s.mi.cause
        initLen := v.setWidth 7
        initMode := bitPair s.mi.initMode v 7 8
        ebusTest := bitPair s.mi.ebusTest v 9 10
        rdramReg := bitPair s.mi.rdramReg v 12 13 } } := by
  unfold miModeWrite
  cases v.getLsbD 11 with
  | true => rfl
  | false => rfl

/-- Bit 11 of an MI_MODE write clears the DP cause and no other (R131). -/
theorem miModeWrite_cause_getLsbD (v : Word) (s : State) {k : Nat} (hk : k < 6) :
    (miModeWrite v s).mi.cause.getLsbD k = (s.mi.cause.getLsbD k && !(decide (k = 5) && v.getLsbD 11)) := by
  rw [miModeWrite_eq]
  cases hv : v.getLsbD 11 with
  | true =>
    rw [Bool.and_true]
    exact clearCause_getLsbD .dp s hk
  | false => simp

/-- Settles O4: the fields of the write, and the pairs by the bit-pair primitive. -/
theorem Interrupt.miModeWrite : Obligations.MiModeWrite := by
  unfold Obligations.MiModeWrite
  intro v s
  refine ⟨_, done_eq _, ?frame, ?_⟩
  case frame => rw [miModeWrite_eq]
  refine ⟨?_, ?_, ?_, ?_, fun k hk => miModeWrite_cause_getLsbD v s hk⟩
  · rw [miModeWrite_eq]
    exact BitVec.toNat_setWidth 7 v
  all_goals
    rw [miModeWrite_eq]
    exact bitPair_eq _ v _ _

/-- A write of MI_MASK's address decodes by P_MI_MASK_WRITE (R105). -/
theorem decode_sw_miMask {c : Config} (h : c.bases = Bases.default) (v : Word) :
    decode c (.bus (.write 0x0430000C#32 (.w v))) = writeMiMask c v := by
  have haddr : writeAt c.bases.mi ((0x0C#20).setWidth 32) v = .bus (.write 0x0430000C#32 (.w v)) := by
    rw [h]
    rfl
  rw [← haddr, decode_sw_mi h 0x0C#20 v (by decide)]
  rfl

/-- Settles O5: the six low bits, the six bit pairs, and the decoder's choice. -/
theorem miMaskWrites : Obligations.MiMaskWrites := by
  unfold Obligations.MiMaskWrites
  refine ⟨fun v s => ⟨_, done_eq _, rfl, fun k hk => ?_⟩,
    fun v s => ⟨_, done_eq _, rfl, fun k hk => maskPairs_getLsbD s.mi.mask v hk⟩,
    fun c v h => decode_sw_miMask h v⟩
  exact (BitVec.getLsbD_setWidth 6 v k).trans (by rw [decide_eq_true hk, Bool.true_and])

/-- Settles O6: each of these writes is an operation that is done with the state as it was. -/
theorem absorbedWrites : Obligations.AbsorbedWrites := by
  unfold Obligations.AbsorbedWrites
  intro v a d s
  simp only [List.forall_mem_cons]
  iterate 8 refine ⟨done_eq s, ?_⟩
  exact List.forall_mem_nil _

/-! ## The aggregate interrupt and the external sources -/

/-- The interrupt is pending when some source's cause and mask are both set (R130). -/
theorem irqPending_iff (s : State) :
    irqPending s = true ↔ ∃ k, k < 6 ∧ s.mi.cause.getLsbD k = true ∧ s.mi.mask.getLsbD k = true := by
  have hbit (k : Nat) : (s.mi.cause &&& s.mi.mask).getLsbD k = true ↔
      s.mi.cause.getLsbD k = true ∧ s.mi.mask.getLsbD k = true := by
    rw [BitVec.getLsbD_and, Bool.and_eq_true]
  rw [irqPending, decide_eq_true_iff]
  simp only [← hbit]
  constructor
  · intro hne
    by_contra! hall
    refine hne (BitVec.eq_of_getLsbD_eq fun k hk => ?_)
    rw [BitVec.getLsbD_zero, ← Bool.not_eq_true]
    exact hall k hk
  · rintro ⟨k, -, hk⟩ hzero
    simp [hzero] at hk

/-- Settles O8: the answer is the pending flag. -/
theorem aggregatePending : Obligations.AggregatePending := by
  unfold Obligations.AggregatePending
  exact fun s => ⟨_, returning_eq _ s, irqPending_iff s⟩

/-- R20's number of an external source is its cause bit. -/
theorem extSource_bit (x : ExtSource) : (extSource x).bit = x.number.toNat := by
  cases x <;> rfl

/-- RAISE_SOURCE and CLEAR_SOURCE of any other k are refused (R115, item 4). -/
theorem decode_sourceWord_refused (c : Config) {high : BitVec 24} (hh : high = 0x100000#24 ∨ high = 0x110000#24)
    {k : Byte} (h0 : k ≠ 0#8) (h3 : k ≠ 3#8) (h4 : k ≠ 4#8) :
    decode c (.port (high ++ k) 0) = .refuseUnknownPortOp (high ++ k) := by
  rw [portRefusals, toNat_append8]
  have hk := k.isLt
  simp only [ne_eq, ← BitVec.toNat_inj, BitVec.toNat_ofNat] at h0 h3 h4
  simp only [List.mem_cons, List.not_mem_nil, or_false]
  rcases hh with rfl | rfl
  all_goals
    rw [BitVec.toNat_ofNat]
    omega

/-- Settles O9: SetCause and ClearCause of the source's bit, and the port words of no source. -/
theorem externalSources : Obligations.ExternalSources := by
  unfold Obligations.ExternalSources
  refine ⟨fun x s => ⟨_, done_eq _, rfl, fun k _ => ?raise⟩, fun x s => ⟨_, done_eq _, rfl, fun k hk => ?clear⟩,
    fun c k h0 h3 h4 => ⟨decode_sourceWord_refused c (.inl rfl) h0 h3 h4,
      decode_sourceWord_refused c (.inr rfl) h0 h3 h4⟩⟩
  case raise =>
    rw [← extSource_bit]
    exact setCause_getLsbD _ s k
  case clear =>
    rw [← extSource_bit]
    exact clearCause_getLsbD _ s hk

end Sys2Proof.Machine
end

section
/-! PROOFS. The bus (spec/41_bus.md R152 .. R161): the loads and stores of the memory image and of PIF RAM, byte by byte
and big-endian (spec/20_memory.md R76), and the accesses to external ranges, unmapped addresses and reserved offsets. -/

namespace Sys2Proof.Machine

open Sys2Proof

/-! ## Big-endian numbers -/

/-- Four bytes, most significant first, as a number (R76). -/
theorem toNat_append_four (b0 b1 b2 b3 : Byte) :
    (b0 ++ b1 ++ b2 ++ b3).toNat = b0.toNat * 256 ^ 3 + b1.toNat * 256 ^ 2 + b2.toNat * 256 + b3.toNat := by
  rw [toNat_append8, toNat_append8, toNat_append8]
  omega

/-- Eight bytes, most significant first, as a number (R76). -/
theorem toNat_append_eight (b0 b1 b2 b3 b4 b5 b6 b7 : Byte) :
    (b0 ++ b1 ++ b2 ++ b3 ++ b4 ++ b5 ++ b6 ++ b7).toNat =
      b0.toNat * 256 ^ 7 + b1.toNat * 256 ^ 6 + b2.toNat * 256 ^ 5 + b3.toNat * 256 ^ 4 + b4.toNat * 256 ^ 3
        + b5.toNat * 256 ^ 2 + b6.toNat * 256 + b7.toNat := by
  rw [toNat_append8, toNat_append8, toNat_append8, toNat_append8, toNat_append_four]
  omega

/-- Two words, most significant first, as a number. -/
theorem toNat_append_word (x y : Word) : (x ++ y).toNat = x.toNat * 2 ^ 32 + y.toNat := by
  rw [BitVec.toNat_append, ← Nat.shiftLeft_add_eq_or_of_lt y.isLt, Nat.shiftLeft_eq]

/-- A byte is its own bits 7 .. 0. -/
theorem byteBytes_eq (v : Byte) : (Data.b v).bytes = (List.range 1).map fun i => v.extractLsb' (8 * (0 - i)) 8 :=
  congrArg (fun b => [b]) BitVec.extractLsb'_eq_self.symm

/-- The bytes of a word, by their bit positions (R76). -/
theorem wordBytes_getElem? (v : Word) {i : Nat} (hi : i < 4) :
    (Data.w v).bytes[i]? = some (v.extractLsb' (8 * (3 - i)) 8) := by
  have hbytes : (Data.w v).bytes = (List.range 4).map fun i => v.extractLsb' (8 * (3 - i)) 8 := rfl
  rw [hbytes, List.getElem?_map, List.getElem?_range hi]
  rfl

/-! ## PIF RAM -/

/-- Word j of PIF RAM as a number (R159). -/
theorem pifLoad_toNat (p : Vector Byte 64) (j : BitVec 4) :
    (pifLoad p j).toNat =
      (pifRead p (4 * j.toNat)).toNat * 2 ^ 24 + (pifRead p (4 * j.toNat + 1)).toNat * 2 ^ 16
        + (pifRead p (4 * j.toNat + 2)).toNat * 2 ^ 8 + (pifRead p (4 * j.toNat + 3)).toNat :=
  toNat_append_four _ _ _ _

/-- Settles O26: the store writes the word's four bytes, and the load composes them. -/
theorem pifRamAccess : Obligations.PifRamAccess := by
  unfold Obligations.PifRamAccess
  intro j v s
  have hj := j.isLt
  refine ⟨⟨_, returningWord_eq _ s, pifLoad_toNat s.si.pifRam j⟩, _, done_eq _, rfl, fun i hi => ?inside,
    fun i hi => ?outside⟩
  case inside => exact (pifWriteBytes_inside _ _ _ _ hi (by omega)).trans (wordBytes_getElem? v hi)
  case outside => exact pifWriteBytes_outside _ _ _ _ hi

/-! ## The memory image -/

/-- Settles O37: each load answers the bytes at its address, most significant first. -/
theorem memoryLoads : Obligations.MemoryLoads := by
  unfold Obligations.MemoryLoads
  intro a s byte
  exact ⟨fun h => ⟨_, loadImage_inside (owned_memoryImage h), rfl⟩,
    fun h => ⟨_, loadImage_inside (owned_memoryImage h), toNat_append8 _ _⟩,
    fun h => ⟨_, loadImage_inside (owned_memoryImage h), toNat_append_four _ _ _ _⟩,
    fun h => ⟨_, loadImage_inside (owned_memoryImage h), toNat_append_eight _ _ _ _ _ _ _ _⟩⟩

/-- A store inside the image, by the bytes of its data in address order (R153). -/
theorem storeImage_stores {a : Word} {d : Data} {s : State} {byte : Nat → Byte} (hm : s.mem.wf = true)
    (ha : a.toNat + d.width.bytes ≤ s.cfg.rdramBytes) (hd : d.bytes = (List.range d.width.bytes).map byte) :
    Stores s (storeImage a d s) a.toNat d.width.bytes byte := by
  refine ⟨_, storeImage_inside ha, rfl, fun i hi => ?inside, fun b hb => ?outside⟩
  case inside =>
    have hi' : i < d.bytes.length := by rwa [Data.length_bytes]
    calc (s.mem.store a.toNat d).read (a.toNat + i)
      _ = d.bytes[i] := Memory.read_writeBytes_inside d.bytes hm a.toNat i hi'
      _ = byte i := by simp [hd]
  case outside => exact Memory.read_writeBytes_outside d.bytes hm (by rwa [Data.length_bytes])

/-- Settles O38: the bytes of each width's data are its bit fields, most significant first. -/
theorem memoryStores : Obligations.MemoryStores := by
  unfold Obligations.MemoryStores
  intro a s ⟨hm, _⟩
  exact ⟨fun v h => storeImage_stores (d := .b v) hm (owned_memoryImage h) (byteBytes_eq v),
    fun v h => storeImage_stores (d := .h v) hm (owned_memoryImage h) rfl,
    fun v h => storeImage_stores (d := .w v) hm (owned_memoryImage h) rfl,
    fun v h => storeImage_stores (d := .d v) hm (owned_memoryImage h) rfl⟩

/-- Settles O40: a load or store of n bytes that end beyond the image stops. -/
theorem outsideImageStops : Obligations.OutsideImageStops := by
  unfold Obligations.OutsideImageStops
  intro a s v1 v2 v4 v8
  exact ⟨fun h => ⟨loadImage_outside (n := .w1) h, storeImage_outside (d := .b v1) h⟩,
    fun h => ⟨loadImage_outside (n := .w2) h, storeImage_outside (d := .h v2) h⟩,
    fun h => ⟨loadImage_outside (n := .w4) h, storeImage_outside (d := .w v4) h⟩,
    fun h => ⟨loadImage_outside (n := .w8) h, storeImage_outside (d := .d v8) h⟩⟩

/-! ## Reserved offsets, unmapped addresses and external ranges -/

/-- Settles O7: reserved reads return the open-bus word, and unmapped ones its low bytes or the word twice. -/
theorem openBusAccesses : Obligations.OpenBusAccesses := by
  unfold Obligations.OpenBusAccesses
  intro off a v s
  simp only [List.forall_mem_cons]
  refine ⟨?reads, ?writes, ⟨_, returning_eq _ s, BitVec.toNat_setWidth 8 _⟩,
    ⟨_, returning_eq _ s, BitVec.toNat_setWidth 16 _⟩, returning_eq _ s,
    ⟨_, returning_eq _ s, toNat_append_word _ _⟩⟩
  case reads =>
    iterate 5 refine ⟨returningWord_eq _ s, ?_⟩
    exact List.forall_mem_nil _
  case writes =>
    iterate 5 refine ⟨done_eq s, ?_⟩
    exact List.forall_mem_nil _

/-- A value cut to a width has that width. -/
theorem ofBits_width (x : BitVec 64) (n : Width) : (Data.ofBits x n).width = n := by
  cases n <;> rfl

/-- Settles O41: a read answers the free value cut to its width, and a write is an event. -/
theorem externalAccesses : Obligations.ExternalAccesses := by
  unfold Obligations.ExternalAccesses
  exact fun a n d s => ⟨⟨_, ofBits_width _ n, returning_eq _ _⟩, done_eq _⟩

end Sys2Proof.Machine
end

section
/-! PROOFS. The Audio DMA Engine (spec/42_audio_dma.md R170 .. R187): what each register write stores, the push of a
slot and its duration, the words of the reads as numbers, and the advance at which a head slot pops. -/

namespace Sys2Proof.Machine

open Sys2Proof

/-! ## Register writes -/

/-- Settles O11: the field masks as numbers, and the clear of the AI cause bit. -/
theorem aiRegisterWrites : Obligations.AiRegisterWrites := by
  unfold Obligations.AiRegisterWrites
  intro v s
  refine ⟨⟨_, done_eq _, rfl, pointerField_toNat v⟩, done_eq _,
    ⟨_, done_eq _, rfl, fun k hk => clearCause_getLsbD .ai s hk⟩, ⟨_, done_eq _, rfl, ?dacrate, ?freq⟩,
    ⟨_, done_eq _, rfl, BitVec.toNat_setWidth 4 v⟩⟩
  case dacrate => exact BitVec.toNat_setWidth 14 v
  case freq => exact congrArg (fun d => s.cfg.viClock / (d + 1)) (BitVec.toNat_setWidth 14 v)

/-! ## The push -/

/-- An AI_LEN write whose push is accepted: the slot and the event carry the length just stored (R171, R172). -/
theorem aiLenWrite_accepted {v : Word} {s : State} (h : s.ai.ready = true ∧ s.ai.fifo.length < 2) :
    aiLenWrite v s =
      { s with
        ai := { s.ai with
          len := lengthField v
          fifo := s.ai.fifo ++
            [⟨s.ai.dramAddr, lengthField v, s.cfg.duration (lengthField v) s.ai.dacrate s.ai.bitrate⟩]
          ready := decide (s.ai.fifo = []) }
        events := s.events ++ [.audioOut s.ai.dramAddr (lengthField v) s.ai.freq
          (dmaReadBytes s.cfg.rdramBytes s.mem s.ai.dramAddr.toNat (lengthField v).toNat)] } :=
  audioPush_accepted (s := s.withAi { s.ai with len := lengthField v }) h

/-- An AI_LEN write whose push is refused stores the length alone (R171). -/
theorem aiLenWrite_refused {v : Word} {s : State} (h : ¬ (s.ai.ready = true ∧ s.ai.fifo.length < 2)) :
    aiLenWrite v s = { s with ai := { s.ai with len := lengthField v } } :=
  audioPush_refused (s := s.withAi { s.ai with len := lengthField v }) h

/-- Settles O12: the stored length, then the two cases of the push. -/
theorem Audio.audioPush : Obligations.AudioPush := by
  unfold Obligations.AudioPush
  intro v s
  have hlen : ((aiLenWrite v s).withAnswer .nothing).ai.len = lengthField v := aiLenWrite_len v s
  refine ⟨_, done_eq _, (congrArg BitVec.toNat hlen).trans (lengthField_toNat v), fun h => ?accepted, fun h => ?refused⟩
  case accepted =>
    rw [aiLenWrite_accepted h]
    exact ⟨_, rfl, dmaReadBytes_length _ _ _ _, fun i hi => dmaReadBytes_get _ _ _ _ i hi⟩
  case refused => rw [aiLenWrite_refused h]

/-! ## The duration of a slot -/

/-- The duration of the default formula, by the clocks (R173). -/
theorem duration_formula {c : Config} (h : c.audioDuration = .formula) (len : BitVec 18) (dacrate : BitVec 14)
    (bitrate : BitVec 4) :
    c.duration len dacrate bitrate =
      if c.viClock / (dacrate.toNat + 1) = 0 then 0
      else len.toNat * c.cpuClock / (4 * (c.viClock / (dacrate.toNat + 1))) := by
  unfold Config.duration
  rw [h]
  rfl

/-- The lowest DAC frequency under the default clocks: floor(48 681 812 / 16 384). -/
theorem default_frequency_ge (dacrate : BitVec 14) : 2971 ≤ Config.default.viClock / (dacrate.toNat + 1) :=
  Nat.div_le_div_left (a := 48681812) (b := 2 ^ 14) dacrate.isLt (Nat.succ_pos _)

/-- The default duration under the default clocks; the frequency is never 0. -/
theorem default_duration (len : BitVec 18) (dacrate : BitVec 14) (bitrate : BitVec 4) :
    Config.default.duration len dacrate bitrate =
      len.toNat * 93750000 / (4 * (Config.default.viClock / (dacrate.toNat + 1))) := by
  have hf := default_frequency_ge dacrate
  rw [duration_formula rfl, if_neg (by omega)]
  rfl

/-- Settles O13: the longest duration is that of the longest length at the lowest frequency. -/
theorem audioDuration : Obligations.AudioDuration := by
  unfold Obligations.AudioDuration
  refine ⟨fun c len dacrate bitrate h => duration_formula h len dacrate bitrate, fun dacrate => ?nonzero,
    fun len dacrate bitrate hlen => ?bound, fun bitrate => ?reached⟩
  case nonzero =>
    have hf := default_frequency_ge dacrate
    omega
  case bound =>
    have hf := default_frequency_ge dacrate
    have hl : len.toNat ≤ 0x3FFF8 := by omega
    calc Config.default.duration len dacrate bitrate
      _ = len.toNat * 93750000 / (4 * (Config.default.viClock / (dacrate.toNat + 1))) := default_duration ..
      _ ≤ 0x3FFF8 * 93750000 / (4 * 2971) :=
        Nat.div_le_div (Nat.mul_le_mul_right _ hl) (Nat.mul_le_mul_left 4 hf) (by decide)
      _ = 2067927465 := by decide
  case reached =>
    rw [default_duration]
    decide

/-! ## Reads -/

/-- The flag at bit 0 of a word is its number. -/
theorem flagBit_zero_toNat (b : Bool) : (flagBit b 0).toNat = b.toNat := by
  cases b <;> rfl

/-- The AI_STATUS word: the flags at bits 31, 30, 25 and 0 (R107). -/
theorem aiStatusWord_toNat (a : AudioEngine) :
    (aiStatusWord a).toNat =
      2 ^ 31 * a.full.toNat + 2 ^ 30 * a.busy.toNat + 2 ^ 25 * a.enable.toNat + a.full.toNat := by
  have hb := a.busy.toNat_le
  have he := a.enable.toNat_le
  have hf := a.full.toNat_le
  have e0 : (flagBit a.full 0).toNat = a.full.toNat := flagBit_zero_toNat a.full
  have e25 := flagBit_or_toNat (b := a.enable) (i := 25) (x := flagBit a.full 0) (by decide) (by omega)
  have e30 := flagBit_or_toNat (b := a.busy) (i := 30) (by decide) (show _ < 2 ^ 30 by rw [e25, e0]; omega)
  have e31 := flagBit_or_toNat (b := a.full) (i := 31) (by decide) (show _ < 2 ^ 31 by rw [e30, e25, e0]; omega)
  rw [aiStatusWord, BitVec.or_assoc, BitVec.or_assoc, e31, e30, e25, e0]
  omega

/-- Settles O14: stored fields, and the status word by its flags. -/
theorem aiReads : Obligations.AiReads := by
  unfold Obligations.AiReads
  intro s
  refine ⟨⟨_, returningWord_eq _ s, ?_⟩, ⟨_, returningWord_eq _ s, ?_⟩, ⟨_, returningWord_eq _ s, ?control⟩,
    ⟨_, returningWord_eq _ s, ?status⟩, ⟨_, returningWord_eq _ s, ?_⟩, ⟨_, returningWord_eq _ s, ?_⟩⟩
  case control => exact flagBit_zero_toNat s.ai.enable
  case status =>
    have hfull : s.ai.full = decide (s.ai.fifo.length = 2) := rfl
    have hbusy : s.ai.busy = decide (1 ≤ s.ai.fifo.length) := rfl
    rw [aiStatusWord_toNat, hfull, hbusy]
    omega
  all_goals exact BitVec.toNat_setWidth_of_le (by decide)

/-! ## The advance that pops a slot -/

/-- A serial tick changes the Serial DMA Engine and the SI cause bit, and nothing else (R212, R213). -/
theorem serialTick_frame (t : Nat) (s : State) :
    serialTick t s =
      { s with mi := { s.mi with cause := (serialTick t s).mi.cause }, si := (serialTick t s).si } ∧
    ∀ k, k ≠ Source.si.bit → (serialTick t s).mi.cause.getLsbD k = s.mi.cause.getLsbD k := by
  cases hb : s.si.dmaBusy with
  | false =>
    rw [serialTick_idle hb]
    exact ⟨rfl, fun _ _ => rfl⟩
  | true =>
    rcases Nat.lt_or_ge (s.si.elapsed + t) s.si.cost with ht | ht
    · rw [serialTick_counts hb ht]
      exact ⟨rfl, fun _ _ => rfl⟩
    · rw [serialTick_completes hb ht]
      exact ⟨rfl, fun k hk => by rw [setCause_getLsbD, decide_eq_false hk, Bool.or_false]⟩

/-- The audio part of an advance is its first half: the serial half leaves the engine and its cause bit alone (R302). -/
theorem advance_audio (t : Nat) (s : State) :
    (advance t s).ai = (audioHandleDma t s).ai ∧
    (advance t s).mi.cause.getLsbD 2 = (audioHandleDma t s).mi.cause.getLsbD 2 :=
  have ⟨hframe, hcause⟩ := serialTick_frame t (audioHandleDma t s)
  ⟨(congrArg State.ai hframe :), hcause 2 (by decide)⟩

section
variable {t : Nat} {s : State} {slot : AudioSlot} {rest : List AudioSlot}

/-- An advance that stays below the head slot's duration moves the audio counter alone (R184). -/
theorem advance_counts (hf : s.ai.fifo = slot :: rest) (ht : s.ai.elapsed + t < slot.dur) :
    (advance t s).ai = { s.ai with elapsed := s.ai.elapsed + t } ∧
    (advance t s).mi.cause.getLsbD 2 = s.mi.cause.getLsbD 2 := by
  rw [(advance_audio t s).1, (advance_audio t s).2, audioHandleDma_counts hf ht]
  exact ⟨rfl, rfl⟩

/-- An advance that reaches the head slot's duration pops it and sets the AI cause (R184, R185). -/
theorem advance_pops (hf : s.ai.fifo = slot :: rest) (ht : slot.dur ≤ s.ai.elapsed + t) :
    (advance t s).ai = { s.ai with fifo := rest, ready := true, elapsed := 0 } ∧
    (advance t s).mi.cause.getLsbD 2 = true := by
  rw [(advance_audio t s).1, (advance_audio t s).2, audioHandleDma_pops hf ht, setCause_getLsbD]
  exact ⟨rfl, Bool.or_true _⟩

end

/-- Advances whose sum stays below the head slot's duration move the audio counter alone. -/
theorem advances_counts (ts : List Nat) {s : State} {slot : AudioSlot} {rest : List AudioSlot}
    (hf : s.ai.fifo = slot :: rest) (ht : ts ≠ [] → s.ai.elapsed + ts.sum < slot.dur) :
    (advances ts s).ai = { s.ai with elapsed := s.ai.elapsed + ts.sum } ∧
    (advances ts s).mi.cause.getLsbD 2 = s.mi.cause.getLsbD 2 := by
  induction ts generalizing s with
  | nil => exact ⟨rfl, rfl⟩
  | cons t ts ih =>
    have hsum : s.ai.elapsed + (t + ts.sum) < slot.dur := by simpa using ht
    obtain ⟨hai, hcause⟩ := advance_counts hf (show s.ai.elapsed + t < slot.dur by omega)
    have hrest : ts ≠ [] → (advance t s).ai.elapsed + ts.sum < slot.dur := fun _ => by
      rw [hai]
      exact (Nat.add_assoc _ _ _).trans_lt hsum
    obtain ⟨hai', hcause'⟩ := ih (by rw [hai]; exact hf) hrest
    refine ⟨?_, hcause'.trans hcause⟩
    calc (advances ts (advance t s)).ai
      _ = { s.ai with elapsed := s.ai.elapsed + t + ts.sum } := by rw [hai', hai]
      _ = { s.ai with elapsed := s.ai.elapsed + (t :: ts).sum } := by rw [List.sum_cons, Nat.add_assoc]

/-- Settles O16: the advances before the last count, and the last one pops. -/
theorem audioPopTiming : Obligations.AudioPopTiming := by
  unfold Obligations.AudioPopTiming
  intro s slot rest ts u hf h0 hbelow hreach
  have hsum : ts ≠ [] → s.ai.elapsed + ts.sum < slot.dur := fun hne => by
    simpa [h0] using hbelow ts.length (List.length_pos_iff.2 hne) le_rfl
  obtain ⟨hai, hcause⟩ := advances_counts ts hf hsum
  rw [h0, Nat.zero_add] at hai
  have hlast : advances (ts ++ [u]) s = advance u (advances ts s) := List.foldl_concat ..
  obtain ⟨hpop, hset⟩ := advance_pops (t := u) (s := advances ts s) (by rw [hai]; exact hf) (by rw [hai]; exact hreach)
  rw [hlast]
  exact ⟨hai, hcause, by rw [hpop, hai], hset⟩

end Sys2Proof.Machine
end

section
/-! PROOFS. The Serial DMA Engine (spec/43_serial_dma.md R200 .. R217): its registers and the status word, the requests, the
channel scan and its devices, and the advance at which a transaction completes. -/

namespace Sys2Proof.Machine

open Sys2Proof

/-! ## Registers -/

/-- A field placed above a word's bits adds its place value. -/
theorem field_or_toNat {n i : Nat} {b : BitVec n} {x : Word} (hi : n + i ≤ 32) (hx : x.toNat < 2 ^ i) :
    (b.setWidth 32 <<< i ||| x).toNat = 2 ^ i * b.toNat + x.toNat := by
  have hb : (b.setWidth 32 <<< i).toNat = 2 ^ i * b.toNat := by
    have hfits : b.toNat * 2 ^ i < 2 ^ 32 := calc b.toNat * 2 ^ i
      _ < 2 ^ n * 2 ^ i := Nat.mul_lt_mul_of_pos_right b.isLt (Nat.two_pow_pos i)
      _ = 2 ^ (n + i) := (Nat.pow_add 2 n i).symm
      _ ≤ 2 ^ 32 := Nat.pow_le_pow_right Nat.two_pos hi
    rw [BitVec.toNat_shiftLeft, BitVec.toNat_setWidth_of_le (by omega), Nat.shiftLeft_eq, Nat.mod_eq_of_lt hfits,
      Nat.mul_comm]
  rw [BitVec.toNat_or, hb, Nat.two_pow_add_eq_or_of_lt hx]

/-- The SI_STATUS word: the flags at bits 12 and 3 .. 0, and the state fields at bits 11:8 and 7:4 (R109). -/
theorem siStatusWord_toNat (e : SerialEngine) :
    (siStatusWord e).toNat =
      2 ^ 12 * e.intr.toNat + (2 ^ 8 * e.dmaState.toNat + (2 ^ 4 * e.pchState.toNat + (2 ^ 3 * e.dmaError.toNat
        + (2 ^ 2 * e.readPending.toNat + (2 ^ 1 * e.ioBusy.toNat + e.dmaBusy.toNat))))) := by
  have hb := e.dmaBusy.toNat_le
  have hio := e.ioBusy.toNat_le
  have hrp := e.readPending.toNat_le
  have herr := e.dmaError.toNat_le
  have hpch := e.pchState.isLt
  have hdma := e.dmaState.isLt
  have e0 := flagBit_zero_toNat e.dmaBusy
  have e1 := flagBit_or_toNat (b := e.ioBusy) (i := 1) (by decide) (show _ < 2 ^ 1 by rw [e0]; omega)
  have e2 := flagBit_or_toNat (b := e.readPending) (i := 2) (by decide) (show _ < 2 ^ 2 by rw [e1, e0]; omega)
  have e3 := flagBit_or_toNat (b := e.dmaError) (i := 3) (by decide) (show _ < 2 ^ 3 by rw [e2, e1, e0]; omega)
  have e4 := field_or_toNat (b := e.pchState) (i := 4) (by decide) (show _ < 2 ^ 4 by rw [e3, e2, e1, e0]; omega)
  have e8 := field_or_toNat (b := e.dmaState) (i := 8) (by decide) (show _ < 2 ^ 8 by rw [e4, e3, e2, e1, e0]; omega)
  have e12 := flagBit_or_toNat (b := e.intr) (i := 12) (by decide)
    (show _ < 2 ^ 12 by rw [e8, e4, e3, e2, e1, e0]; omega)
  unfold siStatusWord
  simp only [BitVec.or_assoc]
  rw [e12, e8, e4, e3, e2, e1, e0]

/-- Settles O17: stored fields, the status word by its fields, and the clear of the SI cause bit. -/
theorem siRegisters : Obligations.SiRegisters := by
  unfold Obligations.SiRegisters
  intro v s
  refine ⟨⟨_, done_eq _, rfl, pointerField_toNat v⟩, ⟨_, returningWord_eq _ s, BitVec.toNat_setWidth_of_le (by decide)⟩,
    returningWord_eq _ s, returningWord_eq _ s, ⟨_, returningWord_eq _ s, ?status⟩, _, done_eq _, rfl,
    fun k hk => clearCause_getLsbD .si _ hk⟩
  case status =>
    rw [siStatusWord_toNat]
    omega

/-! ## Requests -/

/-- Settles O18: a request while busy leaves the state, and the write answers nothing. -/
theorem serialBusyRejects : Obligations.SerialBusyRejects := by
  unfold Obligations.SerialBusyRejects
  intro v s h
  have hkeeps (dir : Dir) : done (serialHandleDma dir v s) = .next { s with answer := .nothing } := by
    rw [serialHandleDma_busy h, done_eq]
  exact ⟨hkeeps .read, hkeeps .write⟩

/-- Settles O19: the 64 bytes read from the image fill PIF RAM from byte 0. -/
theorem serialWriteTransaction : Obligations.SerialWriteTransaction := by
  unfold Obligations.SerialWriteTransaction
  intro v s h
  refine ⟨_, done_eq _, ?frame, fun i hi => ?bytes⟩
  case frame => rw [serialHandleDma_write h]
  case bytes =>
    simp only [serialHandleDma_write h]
    apply Option.some_inj.1
    rw [← Vector.getElem?_eq_getElem hi]
    have hlen : i < (dmaReadBytes s.cfg.rdramBytes s.mem s.si.dramAddr.toNat 64).length := by rwa [dmaReadBytes_length]
    have hinside := pifWriteBytes_inside _ s.si.pifRam 0 i hlen (by omega)
    rw [Nat.zero_add] at hinside
    exact hinside.trans (dmaReadBytes_get _ _ _ _ i hi)

/-- A DMA write leaves what lies beyond the image alone (R79). -/
theorem read_dmaWriteBytes_beyond {size : Nat} (bs : List Byte) {m : Memory} (h : m.wf = true ∧ m.within size = true)
    {a b : Nat} (hb : size ≤ b) : (dmaWriteBytes size m a bs).read b = m.read b := by
  induction bs generalizing m a with
  | nil => rfl
  | cons x bs ih =>
    rw [dmaWriteBytes, ih (dmaWrite_keeps h a x)]
    unfold dmaWrite
    split
    next ha => exact Memory.read_write_ne h.1 (by omega) x
    next => rfl

/-- Settles O20: the scan's bounds, and the 64 bytes of PIF RAM written to the image. -/
theorem serialReadTransaction : Obligations.SerialReadTransaction := by
  unfold Obligations.SerialReadTransaction
  intro v s h hm scan
  have hlen : scan.pif.toList.length = 64 := Vector.length_toList
  obtain ⟨hch, h63⟩ := processRam_bounds s.cfg 63 0 ⟨s.si.pifRam, 0, 0, s.draws⟩ (Nat.zero_le 6)
  refine ⟨_, done_eq _, ?frame, ?_⟩
  case frame =>
    rw [serialHandleDma_read h]
    rfl
  simp only [serialHandleDma_read h]
  refine ⟨hch, ?byte63, fun i hi hs => ?inside, fun b hb => ?outside⟩
  case byte63 => exact Option.some_inj.1 h63
  case inside => exact read_dmaWriteBytes_inside _ hm.1 _ i (hlen.symm ▸ hi) hs
  case outside =>
    obtain hb | hb | hb := hb
    · exact read_dmaWriteBytes_outside _ hm.1 (.inl hb)
    · exact read_dmaWriteBytes_outside _ hm.1 (.inr (hlen.symm ▸ hb))
    · exact read_dmaWriteBytes_beyond _ hm hb

/-! ## The channel scan -/

/-- The low six bits of a frame's TX or RX byte are its length (R118). -/
theorem frameLength_toNat (b : Byte) : (b &&& 0x3F#8).toNat = b.toNat % 64 := by
  rw [BitVec.toNat_and]
  exact Nat.and_two_pow_sub_one_eq_mod b.toNat 6

/-- Settles O21: one round more than the bound of 63 changes nothing, and that round is the rule's. -/
theorem channelScanLoop : Obligations.ChannelScanLoop := by
  unfold Obligations.ChannelScanLoop
  intro c i z
  have hround : processRam c 63 i z = processRam c 64 i z := processRam_rounds c 63 64 i z (by omega) (by omega)
  rw [hround]
  conv_lhs => unfold processRam
  -- the model compares and masks bytes, the rule compares numbers
  simp only [frameLength_toNat, processChannel_ch, BitVec.toNat_eq, BitVec.reduceToNat, pifRead]

theorem pifBytes_length (p : Vector Byte 64) (i n : Nat) : (pifBytes p i n).length = n := by
  simp [pifBytes]

theorem pifBytes_getElem? (p : Vector Byte 64) {i n j : Nat} (hj : j < n) (hi : i + j < 64) :
    (pifBytes p i n)[j]? = p[i + j]? := by
  rw [Vector.getElem?_eq_getElem hi]
  simp [pifBytes, pifRead, hj, hi]

/-- Where no device answers, the channel sets bit 7 of the RX byte (R211). -/
theorem processChannel_noDevice {c : Config} {i tx rx : Nat} {z : ChannelScan}
    (h : joybusDevice c z.draws z.ch (pifBytes z.pif (i + 2) tx) rx = none) :
    (processChannel c i tx rx z).pif = pifWrite z.pif (i + 1) (pifRead z.pif (i + 1) ||| 0x80#8) := by
  simp only [processChannel, h]

/-- The answer of a device goes into the response field (R211). -/
theorem processChannel_answered {c : Config} {i tx rx : Nat} {z : ChannelScan} {bs : List Byte}
    (h : joybusDevice c z.draws z.ch (pifBytes z.pif (i + 2) tx) rx = some bs) :
    (processChannel c i tx rx z).pif = pifWriteBytes z.pif (i + 2 + tx) bs := by
  simp only [processChannel, h]

/-- Settles O22: the command is the tx bytes after the frame's header; then the two answers. -/
theorem channelStep : Obligations.ChannelStep := by
  unfold Obligations.ChannelStep
  intro c i tx rx z hfits
  refine ⟨pifBytes z.pif (i + 2) tx, pifBytes_length _ _ _, fun j hj => pifBytes_getElem? _ hj (by omega), rfl, rfl,
    fun h => ?noDevice, fun bs h => ?answered⟩
  case noDevice =>
    rw [processChannel_noDevice h]
    refine ⟨fun b hb => ?_, fun j hj => ?_⟩
    · rw [pifWrite_get, if_pos (by omega), pifRead, hb, Option.getD_some]
    · rw [pifWrite_get, if_neg (by omega)]
  case answered =>
    have hlen := joybusDevice_length h
    rw [processChannel_answered h]
    exact ⟨hlen, fun j hj => pifWriteBytes_inside _ _ _ _ (by omega) (by omega),
      fun j hj => pifWriteBytes_outside _ _ _ _ (by omega)⟩

/-! ## The default device -/

/-- An answer cut or padded with 0x00 to rx bytes, byte by byte (R216). -/
theorem fitAnswer_getElem? {rx j : Nat} (hj : j < rx) (bs : List Byte) :
    (fitAnswer rx bs)[j]? = some (bs.getD j 0#8) := by
  unfold fitAnswer
  rw [List.getD_eq_getElem?_getD]
  rcases Nat.lt_or_ge j bs.length with h | h
  · rw [List.getElem?_append_left (by rw [List.length_take]; omega), List.getElem?_take_of_lt hj,
      List.getElem?_eq_getElem h, Option.getD_some]
  · rw [List.getElem?_append_right (by rw [List.length_take]; omega), List.getElem?_eq_none h, Option.getD_none,
      List.getElem?_replicate_of_lt (by rw [List.length_take]; omega)]

/-- The bytes of a controller read, and 0x00 after them (R216). -/
theorem padBytes_getD (v : Word) (j : Nat) :
    (padBytes v).getD j 0#8 = if j < 4 then v.extractLsb' (8 * (3 - j)) 8 else 0#8 := by
  rw [List.getD_eq_getElem?_getD, padBytes]
  split
  next hj => rw [wordBytes_getElem? v hj, Option.getD_some]
  next hj => rw [List.getElem?_eq_none (Nat.not_lt.1 hj), Option.getD_none]

section
variable (pad : Word) (rx : Nat) (more : List Byte)

/-- Codes 0x00 and 0xFF ask the controller for its identity (R216). -/
theorem standardController_identity {code : Byte} (h : code = 0x00#8 ∨ code = 0xFF#8) :
    standardController pad 0 (code :: more) rx = some (fitAnswer rx [0x05#8, 0x00#8, 0x02#8]) := by
  simp only [standardController, if_pos h, reduceIte]

/-- Code 0x01 reads the pad (R216). -/
theorem standardController_read :
    standardController pad 0 (0x01#8 :: more) rx = some (fitAnswer rx (padBytes pad)) := rfl

/-- The controller answers no other code (R216). -/
theorem standardController_unknown {code : Byte} (h0 : code ≠ 0x00#8) (hFF : code ≠ 0xFF#8) (h1 : code ≠ 0x01#8) :
    standardController pad 0 (code :: more) rx = none := by
  simp only [standardController, h0, hFF, h1, or_self, reduceIte]

end

/-- Settles O23: the controller's answers, cut or padded to rx bytes. -/
theorem defaultDevice : Obligations.DefaultDevice := by
  unfold Obligations.DefaultDevice
  intro c pad draw ch rx code more hc
  have hdev (ch : Nat) (cmd : List Byte) :
      joybusDevice c draw ch cmd rx = standardController (pad.getD (Config.hostPad draw)) ch cmd rx := by
    rw [joybusDevice, hc]
  simp only [hdev]
  refine ⟨fun hch => if_neg hch.ne', ?empty, fun h => ?identity, fun h => ?read,
    standardController_unknown _ rx more⟩
  case empty => exact ite_self none
  case identity =>
    exact ⟨_, standardController_identity _ rx more h, fitAnswer_length _ _, fun j hj => fitAnswer_getElem? hj _⟩
  case read =>
    subst h
    refine ⟨_, standardController_read _ rx more, fitAnswer_length _ _, fun j hj => ?_⟩
    rw [fitAnswer_getElem? hj, padBytes_getD]

/-! ## The advance that completes a transaction -/

/-- The audio half of an advance changes the Audio DMA Engine and the AI cause bit, and nothing else (R184, R185). -/
theorem audioHandleDma_frame (t : Nat) (s : State) :
    audioHandleDma t s =
      { s with mi := { s.mi with cause := (audioHandleDma t s).mi.cause }, ai := (audioHandleDma t s).ai } ∧
    ∀ k, k ≠ Source.ai.bit → (audioHandleDma t s).mi.cause.getLsbD k = s.mi.cause.getLsbD k := by
  cases hf : s.ai.fifo with
  | nil =>
    rw [audioHandleDma_idle hf]
    exact ⟨rfl, fun _ _ => rfl⟩
  | cons slot rest =>
    rcases Nat.lt_or_ge (s.ai.elapsed + t) slot.dur with ht | ht
    · rw [audioHandleDma_counts hf ht]
      exact ⟨rfl, fun _ _ => rfl⟩
    · rw [audioHandleDma_pops hf ht]
      exact ⟨rfl, fun k hk => by rw [setCause_getLsbD, decide_eq_false hk, Bool.or_false]⟩

/-- The audio half of an advance leaves the Serial DMA Engine and the SI cause bit as they are (R302). -/
theorem audioHandleDma_serial (t : Nat) (s : State) :
    (audioHandleDma t s).si = s.si ∧ (audioHandleDma t s).mi.cause.getLsbD 1 = s.mi.cause.getLsbD 1 :=
  have ⟨hframe, hcause⟩ := audioHandleDma_frame t s
  ⟨(congrArg State.si hframe :), hcause 1 (by decide)⟩

section
variable {t : Nat} {s : State}

/-- An advance that stays below the cost moves the serial counter alone (R212). -/
theorem advance_serialCounts (hb : s.si.dmaBusy = true) (ht : s.si.elapsed + t < s.si.cost) :
    (advance t s).si = { s.si with elapsed := s.si.elapsed + t } ∧
    (advance t s).mi.cause.getLsbD 1 = s.mi.cause.getLsbD 1 := by
  obtain ⟨hsi, hcause⟩ := audioHandleDma_serial t s
  rw [advance, serialTick_counts (by rwa [hsi]) (by rwa [hsi]), hsi]
  exact ⟨rfl, hcause⟩

/-- An advance that reaches the cost completes the transaction and sets the SI cause (R212, R213). -/
theorem advance_serialCompletes (hb : s.si.dmaBusy = true) (ht : s.si.cost ≤ s.si.elapsed + t) :
    (advance t s).si = { s.si with dmaBusy := false, dir := none, elapsed := 0, cost := 0, intr := true } ∧
    (advance t s).mi.cause.getLsbD 1 = true := by
  obtain ⟨hsi, -⟩ := audioHandleDma_serial t s
  rw [advance, serialTick_completes (by rwa [hsi]) (by rwa [hsi]), hsi, setCause_getLsbD]
  exact ⟨rfl, Bool.or_true _⟩

/-- Advances whose sum stays below the cost move the serial counter alone. -/
theorem advances_serialCounts (ts : List Nat) (hb : s.si.dmaBusy = true)
    (ht : ts ≠ [] → s.si.elapsed + ts.sum < s.si.cost) :
    (advances ts s).si = { s.si with elapsed := s.si.elapsed + ts.sum } ∧
    (advances ts s).mi.cause.getLsbD 1 = s.mi.cause.getLsbD 1 := by
  induction ts generalizing s with
  | nil => exact ⟨rfl, rfl⟩
  | cons t ts ih =>
    have hsum : s.si.elapsed + (t + ts.sum) < s.si.cost := by simpa using ht
    obtain ⟨hsi, hcause⟩ := advance_serialCounts hb (show s.si.elapsed + t < s.si.cost by omega)
    have hrest : ts ≠ [] → (advance t s).si.elapsed + ts.sum < (advance t s).si.cost := fun _ => by
      rw [hsi]
      exact (Nat.add_assoc _ _ _).trans_lt hsum
    obtain ⟨hsi', hcause'⟩ := ih (by rw [hsi]; exact hb) hrest
    refine ⟨?_, hcause'.trans hcause⟩
    calc (advances ts (advance t s)).si
      _ = { s.si with elapsed := s.si.elapsed + t + ts.sum } := by rw [hsi', hsi]
      _ = { s.si with elapsed := s.si.elapsed + (t :: ts).sum } := by rw [List.sum_cons, Nat.add_assoc]

end

/-- Settles O24: the advances before the last count, and the last one completes the transaction. -/
theorem serialCompletionTiming : Obligations.SerialCompletionTiming := by
  unfold Obligations.SerialCompletionTiming
  intro s ts u hb h0 hbelow hreach
  have hsum : ts ≠ [] → s.si.elapsed + ts.sum < s.si.cost := fun hne => by
    simpa [h0] using hbelow ts.length (List.length_pos_iff.2 hne) le_rfl
  obtain ⟨hsi, hcause⟩ := advances_serialCounts ts hb hsum
  rw [h0, Nat.zero_add] at hsi
  have hlast : advances (ts ++ [u]) s = advance u (advances ts s) := List.foldl_concat ..
  obtain ⟨hdone, hset⟩ :=
    advance_serialCompletes (t := u) (s := advances ts s) (by rw [hsi]; exact hb) (by rw [hsi]; exact hreach)
  rw [hlast]
  exact ⟨hsi, hcause, by rw [hdone, hsi], hset⟩

end Sys2Proof.Machine
end

section
/-! PROOFS. The Display Command Interface (spec/44_display_cmd.md R240 .. R260): its register writes, the words of its
reads as numbers, the row that a DPC_END write ingests and its scan, the hold of the write, and the handshake with the
consumer. -/

namespace Sys2Proof.Machine

open Sys2Proof

/-! ## Registers and the consumer's ports -/

/-- Settles O27: the pointer's field mask as a number, and the three bit pairs. -/
theorem dpcRegisterWrites : Obligations.DpcRegisterWrites := by
  unfold Obligations.DpcRegisterWrites
  intro v s
  refine ⟨⟨_, done_eq _, rfl, pointerField_toNat v⟩, ?status⟩
  case status =>
    simp only [← bitPair_eq]
    exact done_eq _

/-- The DPC_STATUS word: command-buffer ready at bit 7 above the three flags (R111, R248). -/
theorem dpcStatusWord_toNat (d : DisplayInterface) :
    (dpcStatusWord d).toNat = d.xbus.toNat + 2 * d.freeze.toNat + 4 * d.flush.toNat + 2 ^ 7 := by
  have hx := d.xbus.toNat_le
  have hz := d.freeze.toNat_le
  have hf := d.flush.toNat_le
  have hword : dpcStatusWord d =
      flagBit true 7 ||| (flagBit d.flush 2 ||| (flagBit d.freeze 1 ||| flagBit d.xbus 0)) := by
    rw [dpcStatusWord, BitVec.or_comm, BitVec.or_assoc]
    rfl
  have e0 := flagBit_zero_toNat d.xbus
  have e1 := flagBit_or_toNat (b := d.freeze) (i := 1) (by decide) (show _ < 2 ^ 1 by rw [e0]; omega)
  have e2 := flagBit_or_toNat (b := d.flush) (i := 2) (by decide) (show _ < 2 ^ 2 by rw [e1, e0]; omega)
  have e7 := flagBit_or_toNat (b := true) (i := 7) (by decide) (show _ < 2 ^ 7 by rw [e2, e1, e0]; omega)
  rw [hword, e7, e2, e1, e0, Bool.toNat_true]
  omega

/-- Settles O31: the stored pointers, the status word by its flags, and the counters, which are no state. -/
theorem dpcReads : Obligations.DpcReads := by
  unfold Obligations.DpcReads
  intro s
  refine ⟨⟨_, returningWord_eq _ s, ?_⟩, ⟨_, returningWord_eq _ s, ?_⟩, ⟨_, returningWord_eq _ s, ?_⟩,
    ⟨_, returningWord_eq _ s, dpcStatusWord_toNat s.dpc⟩, ?counters⟩
  case counters =>
    simp only [List.forall_mem_cons]
    iterate 4 refine ⟨returningWord_eq _ s, ?_⟩
    exact List.forall_mem_nil _
  all_goals exact BitVec.toNat_setWidth_of_le (by decide)

/-- Settles O32: each port answers or replaces stored fields, and a flattened list's length is the sum of the lengths. -/
theorem consumerPorts : Obligations.ConsumerPorts := by
  unfold Obligations.ConsumerPorts
  intro s
  exact ⟨returning_eq _ s, returning_eq _ s,
    ⟨_, _, returning_eq _ s, returning_eq _ s, rfl, List.length_map _, fun _ => List.getElem?_map,
      List.length_flatten.symm⟩,
    done_eq _, done_eq _⟩

/-- Settles O30, id by id of the 64. -/
theorem commandLengths : Obligations.CommandLengths := by
  unfold Obligations.CommandLengths
  decide

/-! ## The scan -/

/-- The id of a command, bits 29:24 of its first word, as a number (R117). -/
theorem cmdId_toNat (w : Word) : (cmdId w).toNat = w.toNat / 2 ^ 24 % 64 := by
  rw [cmdId, BitVec.extractLsb'_toNat, Nat.shiftRight_eq_div_pow]

section
variable (c : Config)

/-- A word of a command that began earlier is passed over (R243). -/
theorem scanRow_skipped (skip : Nat) (w : Word) (ws : List Word) :
    scanRow c (skip + 1) (w :: ws) = scanRow c skip ws := by
  rw [scanRow, if_pos (Nat.succ_pos skip), Nat.add_sub_cancel]

/-- The first word of a command is decoded (R243). -/
theorem scanRow_first (w : Word) (ws : List Word) :
    scanRow c 0 (w :: ws) =
      ((scanRow c (2 * c.cmdLen (cmdId w) - 1) ws).1,
        decide (cmdId w = c.syncFullId) || (scanRow c (2 * c.cmdLen (cmdId w) - 1) ws).2) := by
  rw [scanRow, if_neg (Nat.lt_irrefl 0)]

/-- A row that ends inside a command begun earlier holds no command's first word. -/
theorem scanRow_within {skip : Nat} {row : List Word} (h : row.length ≤ skip) :
    scanRow c skip row = (skip - row.length, false) := by
  induction row generalizing skip with
  | nil => rfl
  | cons w ws ih =>
    obtain ⟨n, rfl⟩ : ∃ n, skip = n + 1 := Nat.exists_eq_add_one.2 (Nat.lt_of_lt_of_le (Nat.succ_pos _) h)
    rw [scanRow_skipped, ih (Nat.le_of_succ_le_succ h), List.length_cons, Nat.add_sub_add_right]

/-- A row cut in two: the second part is scanned from the skip count that the first leaves (R243). -/
theorem scanRow_append (skip : Nat) (row more : List Word) :
    scanRow c skip (row ++ more) =
      ((scanRow c (scanRow c skip row).1 more).1,
        (scanRow c skip row).2 || (scanRow c (scanRow c skip row).1 more).2) := by
  induction row generalizing skip with
  | nil => simp [scanRow]
  | cons w ws ih =>
    rw [List.cons_append]
    cases skip with
    | zero => rw [scanRow_first, scanRow_first, ih, Bool.or_assoc]
    | succ skip => rw [scanRow_skipped, scanRow_skipped, ih]

end

/-- Settles O29: the command's id as a number, with the words passed over and the row cut in two. -/
theorem scanBoundaries : Obligations.ScanBoundaries := by
  unfold Obligations.ScanBoundaries
  refine fun c => ⟨fun skip row h => scanRow_within c h, fun w row => ?first,
    fun skip r1 r2 => scanRow_append c skip r1 r2⟩
  case first => simp only [scanRow_first, Config.cmdLen, BitVec.toNat_eq, cmdId_toNat]

/-! ## The DPC_END write -/

/-- A DPC_END write that is not held completes (R241). -/
theorem execSwDpcEnd_notHeld {s : State} (h : s.dpc.frameFinished = false) (v : Word) :
    execSwDpcEnd v s = .next { dpcEndWrite v s with answer := .nothing } := by
  rw [execSwDpcEnd, if_neg (Bool.eq_false_iff.1 h), done_eq]

/-- A DPC_END write is held while the frame-finished flag is true (R241, R313). -/
theorem execSwDpcEnd_held {s : State} (h : s.dpc.frameFinished = true) (v : Word) :
    execSwDpcEnd v s = .fault .heldDpcEnd := by
  rw [execSwDpcEnd, if_pos h]

/-- The number of words ingested, by the pointers' numbers (R241). -/
theorem rowLength_eq (current finish : BitVec 24) :
    rowLength current finish =
      if current.toNat < finish.toNat then (finish.toNat - current.toNat) / 4 else 0 := rfl

/-- Word i of the row, which without dpc_xbus comes from the memory image (R242). -/
theorem ingestedRow_getElem? {s : State} (h : s.dpc.xbus = false) {finish : BitVec 24} {i : Nat}
    (hi : i < (ingestedRow s finish).length) :
    (ingestedRow s finish)[i]? = some (dmaRead32 s.cfg.rdramBytes s.mem (s.dpc.current.toNat + 4 * i)) := by
  rw [ingestedRow_length] at hi
  rw [ingestedRow, List.getElem?_map, List.getElem?_range hi, Option.map_some, readCmdWord, h,
    if_neg Bool.false_ne_true]

/-- The cause word of a DPC_END write (R241, R139). -/
theorem dpcEndWrite_cause_getLsbD (v : Word) (s : State) (k : Nat) :
    (dpcEndWrite v s).mi.cause.getLsbD k =
      (s.mi.cause.getLsbD k ||
        (decide (k = 5) && (scanRow s.cfg s.dpc.skip (ingestedRow s (pointerField v))).2)) := by
  rw [dpcEndWrite_eq]
  cases (scanRow s.cfg s.dpc.skip (ingestedRow s (pointerField v))).2 with
  | false => simp
  | true =>
    rw [Bool.and_true]
    exact setCause_getLsbD .dp s k

/-- Settles O28: the fields of the write by `dpcEndWrite_eq`, then the row's length, its words and the cause word. -/
theorem dpcEndIngest : Obligations.DpcEndIngest := by
  unfold Obligations.DpcEndIngest
  intro v s hf
  have hfin : (dpcEndWrite v s).dpc.finish = pointerField v := by rw [dpcEndWrite_eq]
  refine ⟨_, ingestedRow s (pointerField v), _, execSwDpcEnd_notHeld hf v, ?pointer, ?length, fun hx i hi => ?word,
    ?scan, ?frame, fun k _ => dpcEndWrite_cause_getLsbD v s k⟩
  case pointer => exact (congrArg BitVec.toNat hfin).trans (pointerField_toNat v)
  case length =>
    rw [ingestedRow_length, rowLength_eq]
    simp only [hfin]
  case word => exact ⟨_, ingestedRow_getElem? hx hi, toNat_append_four _ _ _ _⟩
  case scan => rw [dpcEndWrite_eq]
  case frame =>
    rw [dpcEndWrite_eq]
    by_cases hr : ingestedRow s (pointerField v) = [] <;> simp [hr, hf]

/-! ## The hold -/

/-- An operation of the stepping loop that is held, or behind a held one, is passed over, and the loop waits (R313). -/
theorem pick_waits {s : State} {e : Issued} {w : Bool} (ha : e.agent = .steppingLoop)
    (hw : w = true ∨ held s (decode s.cfg e.request) = true) (rest : List Issued) :
    pick s w (e :: rest) = (pick s true rest).map fun p => (p.1, e :: p.2) := by
  rw [pick, ha, decide_eq_true rfl, Bool.and_true, Bool.or_true, if_pos (Bool.or_eq_true_iff.2 hw)]
  cases pick s true rest <;> rfl

/-- Everything the stepping loop issued behind a held operation is passed over (R313). -/
theorem pick_loopWaits (s : State) {waiting : List Issued} (h : ∀ e ∈ waiting, e.agent = .steppingLoop)
    (rest : List Issued) :
    pick s true (waiting ++ rest) = (pick s true rest).map fun p => (p.1, waiting ++ p.2) := by
  induction waiting with
  | nil => simp
  | cons e es ih =>
    obtain ⟨he, hes⟩ := List.forall_mem_cons.1 h
    rw [List.cons_append, pick_waits he (.inl rfl), ih hes, Option.map_map]
    rfl

/-- An operation of another agent goes ahead of a waiting stepping loop, unless it is held itself (R313). -/
theorem pick_otherAgent {s : State} {e : Issued} (ha : e.agent ≠ .steppingLoop)
    (hh : held s (decode s.cfg e.request) = false) (w : Bool) (rest : List Issued) :
    pick s w (e :: rest) = some (e, rest) := by
  rw [pick, hh, decide_eq_false ha, Bool.and_false, if_neg (by decide)]

/-- Where operations are issued and all wait, the machine is stuck (R313). -/
theorem step_stuck {s : State} (hp : s.pending ≠ []) (h : pick s false s.pending = none) :
    step s = .fault .heldDpcEnd := by
  rw [step, stepIssued]
  split
  next hn => exact absurd hn hp
  next => rw [h]

/-- A step performs the operation picked, and the others stay issued (R83). -/
theorem step_picked {s : State} {e : Issued} {others : List Issued} (h : pick s false s.pending = some (e, others)) :
    step s = perform (decode s.cfg e.request) (s.withPending others) := by
  rw [step, stepIssued]
  split
  next hn =>
    rw [hn] at h
    cases h
  next => rw [h]

/-- A write of DPC_END's address decodes to the DPC_END write (R110). -/
theorem decode_sw_dpcEnd {c : Config} (h : c.bases = Bases.default) (v : Word) :
    decode c (.bus (.write 0x04100004#32 (.w v))) = .swDpcEnd v := by
  have haddr : writeAt c.bases.dpc ((0x04#20).setWidth 32) v = .bus (.write 0x04100004#32 (.w v)) := by
    rw [h]
    rfl
  rw [← haddr, decode_sw_dpc h 0x04#20 v (by decide)]
  rfl

/-- Settles O33: nothing issued is picked but the host's operation, behind whatever waits. -/
theorem dpcEndHeld : Obligations.DpcEndHeld := by
  unfold Obligations.DpcEndHeld
  refine ⟨fun v s hf => execSwDpcEnd_held hf v, ?_⟩
  intro v waiting s hb hl hf hw write clear
  have hheld : held s (decode s.cfg write.request) = true := by
    rw [decode_sw_dpcEnd hb v]
    exact hf
  refine ⟨fun hp => step_stuck (by simp [hp]) ?stuck, fun hp => ?cleared⟩
  case stuck =>
    have hnone : pick s true waiting = none := by
      simpa [pick] using pick_loopWaits s hw []
    rw [hp, pick_waits rfl (.inr hheld), hnone, Option.map_none]
  case cleared =>
    have hclear : pick s true [clear] = some (clear, []) := pick_otherAgent (by decide) rfl true []
    have hpick : pick s false s.pending = some (clear, write :: waiting) := by
      rw [hp, pick_waits rfl (.inr hheld), pick_loopWaits s hw, hclear]
      simp
    calc step s
      _ = perform .portClearFrameFinished (s.withPending (write :: waiting)) := step_picked hpick
      _ = execPortClearFrameFinished (s.withPending (write :: waiting)) :=
        perform_live (s := s.withPending (write :: waiting)) hl _
      _ = _ := done_eq _

/-! ## The handshake with the consumer -/

@[simp] theorem aiLenWrite_dpc (v : Word) (s : State) : (aiLenWrite v s).dpc = s.dpc := by
  by_cases h : s.ai.ready = true ∧ s.ai.fifo.length < 2
  · rw [aiLenWrite_accepted h]
  · rw [aiLenWrite_refused h]

@[simp] theorem advance_dpc (n : Nat) (s : State) : (advance n s).dpc = s.dpc :=
  calc (advance n s).dpc
    _ = (audioHandleDma n s).dpc := (congrArg State.dpc (serialTick_frame n _).1 :)
    _ = s.dpc := (congrArg State.dpc (audioHandleDma_frame n s).1 :)

/-- From the interface d to e the rows and the frame-finished flag stay as they are. -/
def KeepsHandshake (d e : DisplayInterface) : Prop := e.rows = d.rows ∧ e.frameFinished = d.frameFinished

theorem KeepsHandshake.of_eq {d e : DisplayInterface} (h : e = d) : KeepsHandshake d e := h ▸ ⟨rfl, rfl⟩

/-- A DPC_END write appends its row, where it has a word (R241). -/
theorem dpcEndWrite_rows (v : Word) (s : State) :
    (dpcEndWrite v s).dpc.rows = s.dpc.rows ∨
    ∃ row, row ≠ [] ∧ (dpcEndWrite v s).dpc.rows = s.dpc.rows ++ [row] := by
  rw [dpcEndWrite_eq]
  by_cases hr : ingestedRow s (pointerField v) = []
  · exact .inl (if_pos hr)
  · exact .inr ⟨_, hr, if_neg hr⟩

/-- The three operations that move the rows or the flag; the others, on a block that exists, leave both (R257). -/
theorem exec_handshake {i : Instr} {s t : State} (hl : s.phase = .live) (h : exec i s = .next t) :
    KeepsHandshake s.dpc t.dpc ∨
    (i = .portClearCommands ∧ t.dpc.rows = [] ∧ t.dpc.frameFinished = s.dpc.frameFinished) ∨
    (i = .portClearFrameFinished ∧ t.dpc.rows = s.dpc.rows ∧ t.dpc.frameFinished = false) ∨
    ((∃ v, i = .swDpcEnd v) ∧ s.dpc.frameFinished = false ∧
      (t.dpc.rows = s.dpc.rows ∨ ∃ row, row ≠ [] ∧ t.dpc.rows = s.dpc.rows ++ [row])) := by
  cases i
  case portClearCommands =>
    cases h
    exact .inr (.inl ⟨rfl, rfl, rfl⟩)
  case portClearFrameFinished =>
    cases h
    exact .inr (.inr (.inl ⟨rfl, rfl, rfl⟩))
  case swDpcEnd v =>
    obtain ⟨hf, rfl⟩ := execSwDpcEnd_next h
    exact .inr (.inr (.inr ⟨⟨v, rfl⟩, hf, dpcEndWrite_rows v s⟩))
  case portConstruct =>
    rcases execPortConstruct_next h with ⟨-, rfl⟩ | ⟨ha, -, -⟩
    · exact .inl ⟨rfl, rfl⟩
    · exact absurd (hl.symm.trans ha) (by decide)
  case swMiMode v =>
    cases h
    rw [miModeWrite_eq]
    exact .inl ⟨rfl, rfl⟩
  case swAiLen v =>
    cases h
    exact .inl (.of_eq (aiLenWrite_dpc v s))
  case swSiPifAdRd64b v | swSiPifAdWr64b v =>
    cases h
    exact .inl (.of_eq (serialHandleDma_dpc _ v s))
  case portAdvance n =>
    cases h
    exact .inl (.of_eq (advance_dpc n s))
  case lbMem | lhMem | lwMem | ldMem =>
    rw [loadImage_next h]
    exact .inl ⟨rfl, rfl⟩
  case sbMem | shMem | swMem | sdMem =>
    rw [(storeImage_next h).2]
    exact .inl ⟨rfl, rfl⟩
  all_goals
    cases h
    exact .inl ⟨rfl, rfl⟩

/-- Settles O34: what each of the three operations of `exec_handshake` does to the rows and to the flag. -/
theorem handshakeWindow : Obligations.HandshakeWindow := by
  unfold Obligations.HandshakeWindow
  intro i s t hl h
  have hrise (hf : t.dpc.frameFinished = s.dpc.frameFinished) (hs : s.dpc.frameFinished = false)
      (ht : t.dpc.frameFinished = true) : ∃ v, i = .swDpcEnd v := absurd (ht.symm.trans (hf.trans hs)) (by decide)
  rcases exec_handshake hl h with ⟨hr, hf⟩ | ⟨hi, hr, hf⟩ | ⟨hi, hr, hf⟩ | ⟨hi, hs, hr⟩
  case inl => exact ⟨.inl hr, fun ht => .inl (hf.trans ht), hrise hf⟩
  case inr.inl => exact ⟨.inr (.inl ⟨hi, hr⟩), fun ht => .inl (hf.trans ht), hrise hf⟩
  case inr.inr.inl => exact ⟨.inl hr, fun _ => .inr hi, fun _ ht => absurd (ht.symm.trans hf) (by decide)⟩
  case inr.inr.inr =>
    exact ⟨hr.imp_right fun hrow => .inr ⟨hs, hi, hrow⟩, fun ht => absurd (ht.symm.trans hs) (by decide),
      fun _ _ => hi⟩

end Sys2Proof.Machine
end

section
/-! PROOFS. The Calibration Register Block (spec/45_calibration.md R280 .. R288): plain storage of its eight registers, and
that no value in it changes what any operation does. Each shared operation commutes with a replacement of the block; an
operation that commutes with it answers the same up to the block. -/

namespace Sys2Proof.Machine

open Sys2Proof

/-! ## The registers -/

/-- Settles O35, register by register: a write stores its word in its own register, a read answers its register. -/
theorem riRegisters : Obligations.RiRegisters := by
  unfold Obligations.RiRegisters
  intro v s
  refine ⟨?mode, ?config, ?currentLoad, ?select, ?refresh, ?latency, ?rerror, ?werror, ?reads⟩
  case reads => exact ⟨returningWord_eq _ s, returningWord_eq _ s, returningWord_eq _ s, returningWord_eq _ s,
    returningWord_eq _ s, returningWord_eq _ s, returningWord_eq _ s, returningWord_eq _ s⟩
  all_goals exact done_eq _

/-! ## The shared operations commute with a replacement of the block -/

section
variable (r : CalibrationBlock) (s : State)

theorem miModeWrite_withRi (v : Word) : miModeWrite v (s.withRi r) = (miModeWrite v s).withRi r := by
  simp only [miModeWrite_eq]
  rfl

/-- The gate of a push, the free slot and what is pushed are no part of the block (R172). -/
theorem audioPush_withRi (a : BitVec 24) (len : BitVec 18) :
    audioPush a len (s.withRi r) = (audioPush a len s).withRi r := by
  by_cases h : s.ai.ready = true ∧ s.ai.fifo.length < 2
  · rw [audioPush_accepted h, audioPush_accepted (s := s.withRi r) h]
    rfl
  · rw [audioPush_refused h, audioPush_refused (s := s.withRi r) h]

theorem aiLenWrite_withRi (v : Word) : aiLenWrite v (s.withRi r) = (aiLenWrite v s).withRi r :=
  audioPush_withRi r (s.withAi { s.ai with len := lengthField v }) s.ai.dramAddr (lengthField v)

theorem audioHandleDma_withRi (t : Nat) : audioHandleDma t (s.withRi r) = (audioHandleDma t s).withRi r := by
  cases hf : s.ai.fifo with
  | nil => rw [audioHandleDma_idle hf, audioHandleDma_idle (s := s.withRi r) hf]
  | cons slot rest =>
    rcases Nat.lt_or_ge (s.ai.elapsed + t) slot.dur with ht | ht
    · rw [audioHandleDma_counts hf ht, audioHandleDma_counts (s := s.withRi r) hf ht]
      rfl
    · rw [audioHandleDma_pops hf ht, audioHandleDma_pops (s := s.withRi r) hf ht]
      rfl

theorem serialTick_withRi (t : Nat) : serialTick t (s.withRi r) = (serialTick t s).withRi r := by
  cases hb : s.si.dmaBusy with
  | false => rw [serialTick_idle hb, serialTick_idle (s := s.withRi r) hb]
  | true =>
    rcases Nat.lt_or_ge (s.si.elapsed + t) s.si.cost with ht | ht
    · rw [serialTick_counts hb ht, serialTick_counts (s := s.withRi r) hb ht]
      rfl
    · rw [serialTick_completes hb ht, serialTick_completes (s := s.withRi r) hb ht]
      rfl

theorem advance_withRi (t : Nat) : advance t (s.withRi r) = (advance t s).withRi r := by
  rw [advance, audioHandleDma_withRi, serialTick_withRi, advance]

theorem serialHandleDma_withRi (dir : Dir) (v : Word) :
    serialHandleDma dir v (s.withRi r) = (serialHandleDma dir v s).withRi r := by
  cases hb : s.si.dmaBusy with
  | true => rw [serialHandleDma_busy hb, serialHandleDma_busy (s := s.withRi r) hb]
  | false =>
    cases dir with
    | read =>
      rw [serialHandleDma_read hb, serialHandleDma_read (s := s.withRi r) hb]
      rfl
    | write =>
      rw [serialHandleDma_write hb, serialHandleDma_write (s := s.withRi r) hb]
      rfl

theorem dpcEndWrite_withRi (v : Word) : dpcEndWrite v (s.withRi r) = (dpcEndWrite v s).withRi r := by
  simp only [dpcEndWrite_eq]
  rfl

/-- CONSTRUCT's block holds zeros in ri whatever ri was (R340, R341). -/
theorem constructed_withRi : constructed (s.withRi r) = constructed s := rfl

end

/-! ## Outcomes up to the block -/

section
variable (r z : CalibrationBlock) (s : State)

/-- An operation that always completes: it is enough that its update commutes with the replacement. -/
theorem hideRi_done {u : State → State} (h : u (s.withRi r) = (u s).withRi r) :
    hideRi z (done (u (s.withRi r))) = hideRi z (done (u s)) := by
  rw [h]
  rfl

theorem hideRi_loadImage (a : Word) (n : Width) :
    hideRi z (loadImage a n (s.withRi r)) = hideRi z (loadImage a n s) := by
  rcases Nat.lt_or_ge s.cfg.rdramBytes (a.toNat + n.bytes) with hs | hs
  · rw [loadImage_outside hs, loadImage_outside (s := s.withRi r) hs]
  · rw [loadImage_inside hs, loadImage_inside (s := s.withRi r) hs]
    rfl

theorem hideRi_storeImage (a : Word) (d : Data) :
    hideRi z (storeImage a d (s.withRi r)) = hideRi z (storeImage a d s) := by
  rcases Nat.lt_or_ge s.cfg.rdramBytes (a.toNat + d.width.bytes) with hs | hs
  · rw [storeImage_outside hs, storeImage_outside (s := s.withRi r) hs]
  · rw [storeImage_inside hs, storeImage_inside (s := s.withRi r) hs]
    rfl

/-- The hold looks at the frame-finished flag alone (R313). -/
theorem hideRi_execSwDpcEnd (v : Word) :
    hideRi z (execSwDpcEnd v (s.withRi r)) = hideRi z (execSwDpcEnd v s) := by
  cases hf : s.dpc.frameFinished with
  | true => rw [execSwDpcEnd_held hf, execSwDpcEnd_held (s := s.withRi r) hf]
  | false =>
    rw [execSwDpcEnd_notHeld hf, execSwDpcEnd_notHeld (s := s.withRi r) hf]
    exact hideRi_done r z s (dpcEndWrite_withRi r s v)

theorem hideRi_execPortConstruct :
    hideRi z (execPortConstruct (s.withRi r)) = hideRi z (execPortConstruct s) := by
  unfold execPortConstruct
  rw [constructed_withRi, State.withRi_phase, State.withRi_allocOk]
  cases s.phase <;> rfl

/-- Every operation but the loads of the block itself answers the same up to the block (R288). The operations that remain
after the named cases, the writes of RI among them, replace fields by values that are read off other fields. -/
theorem hideRi_exec {i : Instr} (h : isRiLoad i = false) :
    hideRi z (exec i (s.withRi r)) = hideRi z (exec i s) := by
  cases i
  case lwRiMode | lwRiConfig | lwRiCurrentLoad | lwRiSelect | lwRiRefresh | lwRiLatency | lwRiRerror | lwRiWerror =>
    exact absurd h (by decide)
  case portConstruct => exact hideRi_execPortConstruct r z s
  case swDpcEnd v => exact hideRi_execSwDpcEnd r z s v
  case lbMem | lhMem | lwMem | ldMem => exact hideRi_loadImage r z s _ _
  case sbMem | shMem | swMem | sdMem => exact hideRi_storeImage r z s _ _
  case swMiMode v => exact hideRi_done r z s (miModeWrite_withRi r s v)
  case swAiLen v => exact hideRi_done r z s (aiLenWrite_withRi r s v)
  case swSiPifAdRd64b v | swSiPifAdWr64b v => exact hideRi_done r z s (serialHandleDma_withRi r s _ v)
  case portAdvance n => exact hideRi_done r z s (advance_withRi r s n)
  all_goals rfl

end

/-- Settles O36, by the case split over the operations in `hideRi_exec`. -/
theorem riNoninterference : Obligations.RiNoninterference := by
  unfold Obligations.RiNoninterference
  exact fun _ s r z h => hideRi_exec r z s h

end Sys2Proof.Machine
end

section
/-! PROOFS. A time advance (spec/46_stepping_time.md R302): what it does to each of the two engines, that nothing else takes
part in it, and that a fair run of advances leaves no engine with work (R304). -/

namespace Sys2Proof.Machine

open Sys2Proof

/-! ## One advance -/

/-- An advance changes the two engines and their cause bits, and nothing else (R302). -/
theorem advance_frame (t : Nat) (s : State) :
    advance t s =
      { s with
        mi := { s.mi with cause := (advance t s).mi.cause }, ai := (advance t s).ai, si := (advance t s).si } ∧
    ∀ k, k ≠ 1 → k ≠ 2 → (advance t s).mi.cause.getLsbD k = s.mi.cause.getLsbD k := by
  obtain ⟨haudio, haudioCause⟩ := audioHandleDma_frame t s
  obtain ⟨hserial, hserialCause⟩ := serialTick_frame t (audioHandleDma t s)
  refine ⟨?_, fun k h1 h2 => (hserialCause k h1).trans (haudioCause k h2)⟩
  calc advance t s
    _ = { audioHandleDma t s with
          mi := { (audioHandleDma t s).mi with cause := (advance t s).mi.cause }, si := (advance t s).si } := hserial
    _ = { s with
          mi := { s.mi with cause := (advance t s).mi.cause }
          ai := (audioHandleDma t s).ai
          si := (advance t s).si } := by rw [haudio]
    _ = _ := by rw [(advance_audio t s).1]

section
variable {t : Nat} {s : State}

/-- The audio counter does not run while the FIFO is empty (R184). -/
theorem advance_audioIdle (hf : s.ai.fifo = []) :
    (advance t s).ai = s.ai ∧ (advance t s).mi.cause.getLsbD 2 = s.mi.cause.getLsbD 2 := by
  rw [(advance_audio t s).1, (advance_audio t s).2, audioHandleDma_idle hf]
  exact ⟨rfl, rfl⟩

/-- The serial counter does not run while the engine is idle (R212). -/
theorem advance_serialIdle (hb : s.si.dmaBusy = false) :
    (advance t s).si = s.si ∧ (advance t s).mi.cause.getLsbD 1 = s.mi.cause.getLsbD 1 := by
  obtain ⟨hsi, hcause⟩ := audioHandleDma_serial t s
  rw [advance, serialTick_idle (by rwa [hsi])]
  exact ⟨hsi, hcause⟩

end

/-- Settles O15: idle, counting or done, engine by engine, and the frame of an advance. -/
theorem advanceEngines : Obligations.AdvanceEngines := by
  unfold Obligations.AdvanceEngines
  intro n s
  obtain ⟨hframe, hcause⟩ := advance_frame n s
  exact ⟨{ advance n s with answer := .nothing }, done_eq _, congrArg (State.withAnswer · .nothing) hframe,
    advance_audioIdle, fun _ _ => advance_counts, fun _ _ => advance_pops,
    advance_serialIdle, advance_serialCounts, advance_serialCompletes, fun k _ => hcause k⟩

/-! ## A fair run of advances -/

/-- A bound on the time units that the audio engine needs to empty its FIFO: for each slot its duration, less what has been
counted of the head's, and one for the advance that pops it. -/
def audioLeft (a : AudioEngine) : Nat :=
  match a.fifo with
  | [] => 0
  | slot :: rest => slot.dur - a.elapsed + 1 + (rest.map fun r => r.dur + 1).sum

/-- A bound on the time units that the serial engine needs to finish its transaction. -/
def serialLeft (e : SerialEngine) : Nat := if e.dmaBusy then e.cost - e.elapsed + 1 else 0

theorem audioLeft_eq_zero_iff (a : AudioEngine) : audioLeft a = 0 ↔ a.fifo = [] := by
  unfold audioLeft
  split <;> simp [*]

theorem serialLeft_eq_zero_iff (e : SerialEngine) : serialLeft e = 0 ↔ e.dmaBusy = false := by
  unfold serialLeft
  split <;> simp [*]

/-- Where the countdown of the head has not begun, every slot has its whole duration left. -/
theorem audioLeft_of_elapsed_zero {a : AudioEngine} (h : a.elapsed = 0) :
    audioLeft a = (a.fifo.map fun r => r.dur + 1).sum := by
  unfold audioLeft
  split <;> simp [*]

/-- An advance leaves the audio engine no more work, and less where time passes and there is some. -/
theorem audioLeft_advance_le (t : Nat) (s : State) : audioLeft (advance t s).ai ≤ audioLeft s.ai - min t 1 := by
  cases hf : s.ai.fifo with
  | nil =>
    rw [(advance_audioIdle hf).1, (audioLeft_eq_zero_iff _).2 hf]
    exact Nat.zero_le _
  | cons slot rest =>
    have hleft : audioLeft s.ai = slot.dur - s.ai.elapsed + 1 + (rest.map fun r => r.dur + 1).sum := by
      rw [audioLeft, hf]
    rcases Nat.lt_or_ge (s.ai.elapsed + t) slot.dur with ht | ht
    · have hnext : audioLeft (advance t s).ai =
          slot.dur - (s.ai.elapsed + t) + 1 + (rest.map fun r => r.dur + 1).sum := by
        rw [(advance_counts hf ht).1, audioLeft, hf]
      omega
    · have hnext : audioLeft (advance t s).ai = (rest.map fun r => r.dur + 1).sum := by
        rw [(advance_pops hf ht).1, audioLeft_of_elapsed_zero rfl]
      omega

/-- An advance leaves the serial engine no more work, and less where time passes and there is some. -/
theorem serialLeft_advance_le (t : Nat) (s : State) : serialLeft (advance t s).si ≤ serialLeft s.si - min t 1 := by
  cases hb : s.si.dmaBusy with
  | false =>
    rw [(advance_serialIdle hb).1, (serialLeft_eq_zero_iff _).2 hb]
    exact Nat.zero_le _
  | true =>
    rcases Nat.lt_or_ge (s.si.elapsed + t) s.si.cost with ht | ht
    · rw [(advance_serialCounts hb ht).1]
      simp only [serialLeft, hb, if_true]
      omega
    · rw [(advance_serialCompletes hb ht).1]
      exact Nat.zero_le _

/-- A quantity that never grows, and falls while it is positive wherever a fair run passes time, comes to 0. -/
theorem Fair.exists_eq_zero {t w : Nat → Nat} (hf : Fair t) (hw : ∀ n, w (n + 1) ≤ w n - min (t n) 1) :
    ∃ n, w n = 0 := by
  obtain ⟨n, hmin⟩ : ∃ n, ∀ m, w n ≤ w m := ⟨Function.argmin w, fun m => Function.argmin_le w m⟩
  have hanti : Antitone w := antitone_nat_of_succ_le fun k => (hw k).trans (Nat.sub_le ..)
  obtain ⟨m, hnm, hm⟩ := hf n
  refine ⟨n, ?_⟩
  have hle : w m ≤ w n := hanti hnm
  have hfall := hw m
  have hlast := hmin (m + 1)
  omega

/-- A bound on the time units that the two engines need to finish what they have. -/
def workLeft (s : State) : Nat := audioLeft s.ai + serialLeft s.si

theorem workLeft_advance_le (t : Nat) (s : State) : workLeft (advance t s) ≤ workLeft s - min t 1 := by
  have haudio := audioLeft_advance_le t s
  have hserial := serialLeft_advance_le t s
  unfold workLeft
  omega

theorem advances_range_succ (t : Nat → Nat) (n : Nat) (s : State) :
    advances ((List.range (n + 1)).map t) s = advance (t n) (advances ((List.range n).map t) s) := by
  rw [List.range_succ, List.map_append]
  exact List.foldl_concat ..

/-- Settles O25: the work left falls at each advance that passes time, and where none is left both engines are done. -/
theorem fairAdvancesFinish : Obligations.FairAdvancesFinish := by
  unfold Obligations.FairAdvancesFinish
  intro t s hfair
  have hfalls (n : Nat) : workLeft (advances ((List.range (n + 1)).map t) s) ≤
      workLeft (advances ((List.range n).map t) s) - min (t n) 1 := by
    rw [advances_range_succ]
    exact workLeft_advance_le _ _
  obtain ⟨n, hn⟩ := hfair.exists_eq_zero (w := fun n => workLeft (advances ((List.range n).map t) s)) hfalls
  obtain ⟨haudio, hserial⟩ := Nat.add_eq_zero_iff.1 hn
  exact ⟨n, (audioLeft_eq_zero_iff _).1 haudio, (serialLeft_eq_zero_iff _).1 hserial⟩

/-! ## A CPU step without bus operations -/

section
variable (es : List Issued) (t : Nat) (s : State)

theorem audioHandleDma_withPending : audioHandleDma t (s.withPending es) = (audioHandleDma t s).withPending es := by
  cases hf : s.ai.fifo with
  | nil => rw [audioHandleDma_idle hf, audioHandleDma_idle (s := s.withPending es) hf]
  | cons slot rest =>
    rcases Nat.lt_or_ge (s.ai.elapsed + t) slot.dur with ht | ht
    · rw [audioHandleDma_counts hf ht, audioHandleDma_counts (s := s.withPending es) hf ht]
      rfl
    · rw [audioHandleDma_pops hf ht, audioHandleDma_pops (s := s.withPending es) hf ht]
      rfl

theorem serialTick_withPending : serialTick t (s.withPending es) = (serialTick t s).withPending es := by
  cases hb : s.si.dmaBusy with
  | false => rw [serialTick_idle hb, serialTick_idle (s := s.withPending es) hb]
  | true =>
    rcases Nat.lt_or_ge (s.si.elapsed + t) s.si.cost with ht | ht
    · rw [serialTick_counts hb ht, serialTick_counts (s := s.withPending es) hb ht]
      rfl
    · rw [serialTick_completes hb ht, serialTick_completes (s := s.withPending es) hb ht]
      rfl

/-- What is issued and not yet performed takes no part in an advance. -/
theorem advance_withPending : advance t (s.withPending es) = (advance t s).withPending es := by
  rw [advance, audioHandleDma_withPending, serialTick_withPending, advance]

end

/-- The ADVANCE(t) that a CPU step issues (R300). -/
def advanceOp (t : Nat) : Issued := ⟨.steppingLoop, .port (portWord 0x02#8 0#8) t⟩

/-- The QUERY_IRQ that a CPU step issues last (R300). -/
def queryIrqOp : Issued := ⟨.steppingLoop, .port (portWord 0x01#8 0#8) 0⟩

theorem CpuStep.issued_of_no_ops (t : Nat) : (CpuStep.mk [] t).issued = [advanceOp t, queryIrqOp] := rfl

theorem step_advanceOp {s : State} (hl : s.phase = .live) (t : Nat) (rest : List Issued) :
    step (s.withPending (advanceOp t :: rest)) = done ((advance t s).withPending rest) :=
  calc step (s.withPending (advanceOp t :: rest))
    _ = exec (.portAdvance t) (s.withPending rest) := stepRunsDecoded.1 (advanceOp t) rest _ hl rfl rfl
    _ = done ((advance t s).withPending rest) := congrArg done (advance_withPending rest t s)

theorem step_queryIrqOp {s : State} {rest : List Issued} (hl : s.phase = .live) (hp : s.pending = queryIrqOp :: rest) :
    step s = returning (.flag (irqPending s)) (s.withPending rest) :=
  stepRunsDecoded.1 queryIrqOp rest s hl hp rfl

/-- Settles O54: two steps of the machine, one for each of the two operations issued. -/
theorem idleCpuStep : Obligations.IdleCpuStep := by
  unfold Obligations.IdleCpuStep
  intro t s hl hp
  have hl' : (advance t s).phase = .live := by rw [(advance_frame t s).1, hl]
  have hp' : (advance t s).pending = [] := by rw [(advance_frame t s).1, hp]
  calc runCpuStep ⟨[], t⟩ s
    _ = stepN 2 (s.withPending [advanceOp t, queryIrqOp]) := by
      rw [runCpuStep, CpuStep.issued_of_no_ops, hp]
      rfl
    _ = stepN 1 (((advance t s).withPending [queryIrqOp]).withAnswer .nothing) := stepN_succ (step_advanceOp hl t _)
    _ = stepN 0 (((advance t s).withPending []).withAnswer (.flag (irqPending (advance t s)))) :=
      stepN_succ (step_queryIrqOp hl' rfl)
    _ = .next { advance t s with answer := .flag (irqPending (advance t s)) } := by
      rw [← hp']
      rfl

end Sys2Proof.Machine
end

section
/-! PROOFS. The moves of each agent (spec/46_stepping_time.md R300, R306, R322): the port words that are moves of it, and
what a move of the host or of an external component changes. -/

namespace Sys2Proof.Machine

open Sys2Proof

/-! ## The port words of each agent -/

/-- The operation that a port word decodes to names its word. -/
theorem word_eq_of_decodePort {word w : Word} {t n : Nat} {i : Instr} (hi : decodePort word t = i)
    (hw : encode Config.default i = .port w n) : word = w := by
  have henc : encode Config.default i = .port word _ := hi ▸ (decodePort_encodes Config.default word t).1
  exact (Request.port.inj (henc.symm.trans hw)).1

/-- QUERY_IRQ and ADVANCE (R300). -/
theorem isLoopPort_decodePort_iff (word : Word) (t : Nat) :
    isLoopPort (decodePort word t) = true ↔ word = 0x01000000#32 ∨ word = 0x02000000#32 := by
  constructor
  · intro h
    unfold isLoopPort at h
    split at h
    next n hi => exact .inr (word_eq_of_decodePort hi rfl)
    next hi => exact .inl (word_eq_of_decodePort hi rfl)
    next => cases h
  · rintro (rfl | rfl)
    · rfl
    · rfl

/-- RAISE_SOURCE and CLEAR_SOURCE of the three external sources, and the refused words (R322, R141, R142). -/
theorem isExternalPort_decodePort_iff (word : Word) (t : Nat) :
    isExternalPort (decodePort word t) = true ↔
      word ∈ [0x10000000#32, 0x10000003#32, 0x10000004#32, 0x11000000#32, 0x11000003#32, 0x11000004#32] ∨
        decodePort word t = .refuseUnknownPortOp word := by
  constructor
  · intro h
    unfold isExternalPort at h
    split at h
    next k hi =>
      rw [word_eq_of_decodePort hi rfl]
      exact .inl (by cases k <;> decide)
    next k hi =>
      rw [word_eq_of_decodePort hi rfl]
      exact .inl (by cases k <;> decide)
    next w hi =>
      obtain rfl : word = w := word_eq_of_decodePort hi rfl
      exact .inr hi
    next => cases h
  · simp only [List.mem_cons, List.not_mem_nil, or_false]
    rintro ((rfl | rfl | rfl | rfl | rfl | rfl) | hr)
    case mpr.inr =>
      rw [hr]
      rfl
    all_goals rfl

theorem isHostPort_of_isExternalPort {i : Instr} (h : isExternalPort i = true) : isHostPort i = true := by
  unfold isExternalPort at h
  split at h
  case h_4 => cases h
  all_goals rfl

/-- The moves of the external components, CONSTRUCT and the six ports of the consumer (R306). -/
theorem isHostPort_decodePort_iff (word : Word) (t : Nat) :
    isHostPort (decodePort word t) = true ↔
      isExternalPort (decodePort word t) = true ∨
        word ∈ [0x03000000#32, 0x20000000#32, 0x21000000#32, 0x22000000#32, 0x23000000#32, 0x24000000#32,
          0x25000000#32] := by
  constructor
  · intro h
    unfold isHostPort at h
    split at h
    case h_8 => exact .inl h
    all_goals
      next hi =>
        rw [word_eq_of_decodePort hi rfl]
        exact .inr (by decide)
  · simp only [List.mem_cons, List.not_mem_nil, or_false]
    rintro (h | rfl | rfl | rfl | rfl | rfl | rfl | rfl)
    case inl => exact isHostPort_of_isExternalPort h
    all_goals rfl

/-! ## What a move of the host or of an external component changes -/

/-- Every move of an agent other than the stepping loop is a port operation of the host (R322). -/
theorem isHostPort_of_mayIssue (c : Config) {a : Agent} {r : Request} (ha : a ≠ .steppingLoop)
    (hm : mayIssue a r = true) : isHostPort (decode c r) = true := by
  cases r with
  | bus op => exact absurd (decide_eq_true_iff.1 ((mayIssue_bus a op).symm.trans hm)) ha
  | port word t =>
    cases a with
    | steppingLoop => exact absurd rfl ha
    | host => exact hm
    | external => exact isHostPort_of_isExternalPort hm

/-- From s to t at most the cause bits of SP, VI and PI move, the rows are emptied, the frame-finished flag falls, and the
refusal record and the answer are replaced. -/
def HostChange (s t : State) : Prop :=
  t = { s with
    mi := { s.mi with cause := t.mi.cause }
    dpc := { s.dpc with
      rows := t.dpc.rows, cmdReady := t.dpc.cmdReady, frameFinished := t.dpc.frameFinished }
    refused := t.refused
    answer := t.answer } ∧
  (t.dpc.rows = s.dpc.rows ∧ t.dpc.cmdReady = s.dpc.cmdReady ∨ t.dpc.rows = [] ∧ t.dpc.cmdReady = false) ∧
  (t.dpc.frameFinished = true → s.dpc.frameFinished = true) ∧
  ∀ k, k = 1 ∨ k = 2 ∨ k = 5 → t.mi.cause.getLsbD k = s.mi.cause.getLsbD k

/-- The external sources are not SI, AI or DP (R141). -/
theorem extSource_bit_ne (x : ExtSource) {k : Nat} (hk : k = 1 ∨ k = 2 ∨ k = 5) : k ≠ (extSource x).bit := by
  rcases hk with rfl | rfl | rfl
  all_goals cases x <;> decide

/-- The operations that remain after the named cases are no port operations of the host. -/
theorem exec_hostChange {i : Instr} {s t : State} (hp : isHostPort i = true) (hl : s.phase = .live)
    (h : exec i s = .next t) : HostChange s t := by
  cases i
  case portRaiseSource x =>
    cases h
    exact ⟨rfl, .inl ⟨rfl, rfl⟩, id, fun k hk => by
      simp [setCause_getLsbD, extSource_bit_ne x hk]⟩
  case portClearSource x =>
    cases h
    exact ⟨rfl, .inl ⟨rfl, rfl⟩, id, fun k hk => by
      simp [clearCause_getLsbD _ s (show k < 6 by omega), extSource_bit_ne x hk]⟩
  case portClearCommands =>
    cases h
    exact ⟨rfl, .inr ⟨rfl, rfl⟩, id, fun _ _ => rfl⟩
  case portClearFrameFinished =>
    cases h
    exact ⟨rfl, .inl ⟨rfl, rfl⟩, fun hf => (Bool.false_ne_true hf).elim, fun _ _ => rfl⟩
  case portConstruct =>
    rcases execPortConstruct_next h with ⟨-, rfl⟩ | ⟨ha, -, -⟩
    · exact ⟨rfl, .inl ⟨rfl, rfl⟩, id, fun _ _ => rfl⟩
    · exact absurd (hl.symm.trans ha) (by decide)
  case portQueryCmdReady | portQueryFrameFinished | portExportWords | portExportRowLengths | refuseUnknownPortOp =>
    cases h
    exact ⟨rfl, .inl ⟨rfl, rfl⟩, id, fun _ _ => rfl⟩
  all_goals cases hp

/-- Settles O60: the port words agent by agent, and what each port operation of the host changes. -/
theorem hostMoves : Obligations.HostMoves := by
  unfold Obligations.HostMoves
  refine ⟨fun c word t => ⟨isLoopPort_decodePort_iff word t, isExternalPort_decodePort_iff word t, ?_⟩,
    fun a op => ?_, fun _ _ => rfl, fun e s t hl ha hm h => ?_⟩
  · refine (isHostPort_decodePort_iff word t).trans ?_
    rw [isExternalPort_decodePort_iff, or_assoc]
    exact Iff.rfl
  · rw [mayIssue_bus, decide_eq_true_iff]
  · exact exec_hostChange (isHostPort_of_mayIssue s.cfg ha hm) hl h

end Sys2Proof.Machine
end

section
/-! PROOFS. Exceptions (spec/60_exceptions.md R310 .. R313): a refusal changes the record alone and the first one stays,
only the refused forms and CONSTRUCT set it on a block that exists, and every well-formed operation that is not held
completes. -/

namespace Sys2Proof.Machine

open Sys2Proof

/-! ## The refusal record -/

theorem refuse_first {s : State} (h : s.refused = none) (r : RefuseReason) :
    refuse r s = .next { s with refused := some r, answer := .refused r } := by
  rw [refuse_eq, h, Option.none_or]

theorem refuse_recorded {s : State} (h : s.refused ≠ none) (r : RefuseReason) :
    refuse r s = .next { s with answer := .refused r } := by
  rw [refuse_eq, Option.or_of_isSome (Option.isSome_iff_ne_none.2 h)]

/-- Settles O42: each refused form is `refuse` with its own reason. -/
theorem refusalsRecorded : Obligations.RefusalsRecorded := by
  unfold Obligations.RefusalsRecorded
  exact fun op word s =>
    ⟨fun h => ⟨refuse_first h _, refuse_first h _, refuse_first h _⟩,
      fun h => ⟨refuse_recorded h _, refuse_recorded h _, refuse_recorded h _⟩⟩

@[simp] theorem aiLenWrite_record (v : Word) (s : State) : (aiLenWrite v s).refused = s.refused := by
  by_cases h : s.ai.ready = true ∧ s.ai.fifo.length < 2
  · rw [aiLenWrite_accepted h]
  · rw [aiLenWrite_refused h]

@[simp] theorem serialHandleDma_record (dir : Dir) (v : Word) (s : State) :
    (serialHandleDma dir v s).refused = s.refused := by
  cases hb : s.si.dmaBusy with
  | true => rw [serialHandleDma_busy hb]
  | false =>
    cases dir with
    | read => rw [serialHandleDma_read hb]
    | write => rw [serialHandleDma_write hb]

@[simp] theorem advance_record (n : Nat) (s : State) : (advance n s).refused = s.refused :=
  (congrArg State.refused (advance_frame n s).1 :)

/-- On a block that exists an operation leaves the record as it is, or is a refused one, which records a reason where there
is none (R312). -/
theorem exec_record {i : Instr} {s t : State} (hl : s.phase = .live) (h : exec i s = .next t) :
    t.refused = s.refused ∨
    ((isRefusal i = true ∨ i = .portConstruct) ∧ ∃ r, t.refused = s.refused.or (some r)) := by
  cases i
  case refuseUnsupportedWidth | refuseMisalignedBusAccess | refuseUnknownPortOp =>
    cases h
    exact .inr ⟨.inl rfl, _, rfl⟩
  case portConstruct =>
    rcases execPortConstruct_next h with ⟨-, rfl⟩ | ⟨ha, -, -⟩
    · exact .inr ⟨.inr rfl, _, rfl⟩
    · exact absurd (hl.symm.trans ha) (by decide)
  case swMiMode v =>
    cases h
    rw [miModeWrite_eq]
    exact .inl rfl
  case swAiLen v =>
    cases h
    exact .inl (aiLenWrite_record v s)
  case swSiPifAdRd64b v | swSiPifAdWr64b v =>
    cases h
    exact .inl (serialHandleDma_record _ v s)
  case swDpcEnd v =>
    rw [(execSwDpcEnd_next h).2, dpcEndWrite_eq]
    exact .inl rfl
  case portAdvance n =>
    cases h
    exact .inl (advance_record n s)
  case lbMem | lhMem | lwMem | ldMem =>
    rw [loadImage_next h]
    exact .inl rfl
  case sbMem | shMem | swMem | sdMem =>
    rw [(storeImage_next h).2]
    exact .inl rfl
  all_goals
    cases h
    exact .inl rfl

/-- Settles O43: `exec_record` says what each operation can do to the record, and a reason recorded is kept by `or`. -/
theorem refusalRecordStays : Obligations.RefusalRecordStays := by
  unfold Obligations.RefusalRecordStays
  intro i s t hl h
  rcases exec_record hl h with hkeep | ⟨hi, r, hr⟩
  · exact ⟨fun _ => hkeep, fun hs ht => absurd (hkeep.trans hs) ht⟩
  · exact ⟨fun hs => hr.trans (Option.or_of_isSome (Option.isSome_iff_ne_none.2 hs)), fun _ _ => hi⟩

/-! ## Every operation that is not held completes -/

/-- A load that the decoder makes lies in the image, so it completes (R152). -/
theorem loadImage_completes {a : Word} {n : Width} {s : State} (h : owned s.cfg .memoryImage a n = true) :
    ∃ t, loadImage a n s = .next t := ⟨_, loadImage_inside (owned_memoryImage h)⟩

/-- A store that the decoder makes lies in the image, so it completes (R153). -/
theorem storeImage_completes {a : Word} {s : State} (d : Data) (h : owned s.cfg .memoryImage a d.width = true) :
    ∃ t, storeImage a d s = .next t := ⟨_, storeImage_inside (owned_memoryImage h)⟩

/-- CONSTRUCT on a block that exists is refused, which is a next state (R340). -/
theorem execPortConstruct_live {s : State} (h : s.phase = .live) :
    execPortConstruct s = refuse (.unknownPortOp 0x03000000#32) s := by
  rw [execPortConstruct, h]

/-- Settles O55: the memory accesses lie in the image, the DPC_END write is not held, CONSTRUCT is refused, and every other
operation answers a next state on every path. -/
theorem everyOperationCompletes : Obligations.EveryOperationCompletes := by
  unfold Obligations.EveryOperationCompletes
  intro i s hl hw hh
  cases i
  case lbMem | lhMem | lwMem | ldMem => exact loadImage_completes hw
  case sbMem a v => exact storeImage_completes (.b v) hw
  case shMem a v => exact storeImage_completes (.h v) hw
  case swMem a v => exact storeImage_completes (.w v) hw
  case sdMem a v => exact storeImage_completes (.d v) hw
  case swDpcEnd v => exact ⟨_, execSwDpcEnd_notHeld hh v⟩
  case portConstruct => exact ⟨_, execPortConstruct_live hl⟩
  all_goals exact ⟨_, rfl⟩

end Sys2Proof.Machine
end

section
/-! PROOFS. Reset and CONSTRUCT (spec/70_reset_and_hazards.md R340, R341): the value of every state element of the fresh
block, what CONSTRUCT does in each phase, and that the fresh block meets the invariant (R51). -/

namespace Sys2Proof.Machine

open Sys2Proof

/-! ## The fresh block -/

/-- The rate register is 0 at reset, so the DAC frequency is the clock itself (R29, R341). -/
theorem fresh_freq (c : Config) : (State.fresh c).ai.freq = c.viClock := Nat.div_one c.viClock

theorem fresh_pifRam (c : Config) (i : Nat) (h : i < 64) : (State.fresh c).si.pifRam[i] = 0#8 :=
  Vector.getElem_replicate h

/-- No cause is raised at reset (R130, R341). -/
theorem fresh_irqPending (c : Config) : irqPending (State.fresh c) = false :=
  decide_eq_false (not_not_intro BitVec.zero_and)

/-- Settles O1: the table of R341 component by component, then R51 from the components' invariants. -/
theorem resetState : Obligations.ResetState := by
  unfold Obligations.ResetState
  refine ⟨fun c => ?_, fresh_freq Config.default⟩
  obtain ⟨hlen, hready, hidle, -⟩ := audioInv_fresh c
  obtain ⟨hbusy, hoff, -⟩ := serialInv_fresh c
  obtain ⟨hcmd, hrows, -⟩ := displayInv_fresh c
  have hdir : (State.fresh c).si.dmaBusy = true ↔ (State.fresh c).si.dir ≠ none := by
    rw [hbusy, Option.isSome_iff_ne_none]
  -- mi, and ai up to the rate registers
  iterate 11 refine ⟨rfl, ?_⟩
  refine ⟨fresh_freq c, ?_⟩
  -- the rest of ai, and si up to PIF RAM
  iterate 16 refine ⟨rfl, ?_⟩
  refine ⟨fresh_pifRam c, ?_⟩
  -- dpc, ri, and the memory image, the record and the parameters
  iterate 21 refine ⟨rfl, ?_⟩
  exact ⟨fresh_irqPending c, hlen, hready, hidle, hdir, fun hb => (hoff hb).1, List.length_flatten.symm,
    fun r hr => (hrows r hr).1, hcmd⟩

/-- Settles O58: the fresh block meets the invariant component by component, and R6's defaults are admitted. -/
theorem freshInv : Obligations.FreshInv := by
  unfold Obligations.FreshInv
  exact ⟨fun _ hc => inv_fresh hc, inv_fresh (by decide)⟩

/-! ## CONSTRUCT -/

/-- CONSTRUCT where the image can be allocated gives the fresh block (R340). -/
theorem execPortConstruct_absent {s : State} (hp : s.phase = .absent) (ha : s.allocOk = true) :
    execPortConstruct s =
      .next { State.fresh s.cfg with events := s.events, draws := s.draws, pending := s.pending } := by
  rw [execPortConstruct, hp]
  dsimp only
  rw [if_pos ha, done_eq, constructed, ha]
  rfl

/-- CONSTRUCT where the image cannot be allocated ends in the construction failure (R314). -/
theorem execPortConstruct_fails {s : State} (hp : s.phase = .absent) (ha : s.allocOk = false) :
    execPortConstruct s = .fault .constructionFailure := by
  rw [execPortConstruct, hp]
  dsimp only
  rw [if_neg (by rw [ha]; exact Bool.false_ne_true)]

/-- Settles O2: no block and an image, no block and no image, a block that exists. -/
theorem constructOnce : Obligations.ConstructOnce := by
  unfold Obligations.ConstructOnce
  exact fun s => ⟨execPortConstruct_absent, execPortConstruct_fails,
    fun hl => (execPortConstruct_live hl).trans (refuse_eq _ s)⟩

end Sys2Proof.Machine
end
